-- ==== Sys2Proof/Word.lean ====
section
/-! DEFINITION. The words of the block: bytes, nibbles and the four encoded forms of R67 as data.

A REQ is a 28-bit word and a list operand (R68). A UOP is a 32-bit word (R72). A MACRO is a 4-bit code with its
operands beside it (R71 gives the operands no bit positions). An LCD_CMD is one command byte (R74). -/

namespace Sys2Proof

/-- An 8-bit command, data, row or column value (R10). -/
abbrev Byte := BitVec 8

/-- A 4-bit nibble (R10, R15). -/
abbrev Nibble := BitVec 4

/-- An abstract identifier of one 8-bit output register and of the direction register paired with it (R18, R38). -/
abbrev PortRef := Nat

/-- A host request as encoded: the 28-bit REQ word and its list operand (R68). -/
structure Req where
  word : BitVec 28
  s : List Byte
  deriving DecidableEq, Repr

/-- One entry of the sequencer's pending list, as encoded. The expansions of the spec hold UOP words only (R27);
the other two forms are the internal operations of R71 and the command bytes of R74 (log 9). -/
inductive Item where
  /-- A 32-bit micro-op word (R72). -/
  | uop (w : BitVec 32)
  /-- A MACRO: its code, and the operand fields n, row and col of R71 (those it does not use are ignored). -/
  | macroOp (code n : Nibble) (row col : Byte)
  /-- A command byte of R74. -/
  | cmd (b : Byte)
  deriving DecidableEq, Repr

/-- Any encoded instruction: a request, or an entry of the pending list. -/
inductive Code where
  | req (r : Req)
  | item (it : Item)
  deriving DecidableEq, Repr

/-- Why a decoder refuses a word, by name (R76). -/
inductive DecodeError where
  /-- REQ op 0x6 to 0xF (R69, R76): illegal. -/
  | reservedOp (op : Nibble)
  /-- UOP code 6 or 7 (R72, R76): reserved. -/
  | reservedUop (code : BitVec 3)
  /-- MACRO code 0x3 and above (R76): unused. -/
  | unusedMacro (code : Nibble)
  /-- A byte to which R74 gives no row, found where a command-byte row is asked for. -/
  | unclassifiedCmd (b : Byte)
  deriving DecidableEq, Repr

end Sys2Proof
end

