-- ==== Sys2Proof/Config.lean ====
section
/-! DEFINITION. What is fixed for a machine: the Device Handle (R18), every parameter of R7, R8, R9 and R11 with its
default, and the free value behind the δ draws (R26, R81). -/

namespace Sys2Proof

/-- How a string operand ends (R9, R16, R95). -/
inductive StringMode where
  | nulTerminated
  | lengthBounded
  deriving DecidableEq, Repr

/-- One bit for each of the six lines: a level (RESET_OUT) or a direction, 1 = output (RESET_DIR) (R9). -/
structure Lines where
  rs : Bool
  e : Bool
  d : Nibble
  deriving DecidableEq, Repr

/-- The Device Handle H (R18): where each of the six lines sits. The single `dPort` is the invariant that the four
data bits share a port; `d4Bit` to `d7Bit` are H.d_bit[0..3]. -/
structure Handle where
  rsPort : PortRef
  rsBit : Fin 8
  enPort : PortRef
  enBit : Fin 8
  dPort : PortRef
  d4Bit : Fin 8
  d5Bit : Fin 8
  d6Bit : Fin 8
  d7Bit : Fin 8
  deriving DecidableEq, Repr

/-- The handle and every parameter of the model (R7, R8, R9, R11, R18). Times are in µs. -/
structure Config where
  handle : Handle
  /-- T_RS_SETUP (R7). -/
  tRsSetup : Nat
  /-- T_BUS_SETTLE (R7). -/
  tBusSettle : Nat
  /-- T_EN_HIGH (R7). -/
  tEnHigh : Nat
  /-- T_EXEC_LONG (R7). -/
  tExecLong : Nat
  /-- T_EXEC_SHORT (R7). -/
  tExecShort : Nat
  /-- T_CHAR (R7). -/
  tChar : Nat
  /-- T_POWER (R7). -/
  tPower : Nat
  /-- T_RESET1 (R7). -/
  tReset1 : Nat
  /-- T_RESET2 (R7). -/
  tReset2 : Nat
  /-- T_RESET3 (R7). -/
  tReset3 : Nat
  /-- T_FINAL (R7). -/
  tFinal : Nat
  /-- DELTA_MAX (R7, D12): a bound, or `none` for no upper bound. -/
  deltaMax : Option Nat
  /-- CMD_CLEAR (R8). -/
  cmdClear : Byte
  /-- CMD_HOME (R8). -/
  cmdHome : Byte
  /-- CMD_FUNCSET (R8). -/
  cmdFuncset : Byte
  /-- INIT_DISPCTRL (R8). -/
  initDispctrl : Byte
  /-- INIT_ENTRY (R8). -/
  initEntry : Byte
  /-- ROW1_BASE (R8). -/
  row1Base : Byte
  /-- ROW2_BASE (R8). -/
  row2Base : Byte
  /-- NIB_RESET (R8). -/
  nibReset : Nibble
  /-- NIB_4BIT (R8). -/
  nib4Bit : Nibble
  /-- STRING_MODE (R9). -/
  stringMode : StringMode
  /-- INVALID_ROW_SENDS_DATA (R9). -/
  invalidRowSendsData : Bool
  /-- RESET_OUT (R9). -/
  resetOut : Lines
  /-- RESET_DIR (R9). -/
  resetDir : Lines
  /-- OBS_POWER_MIN (R11). -/
  obsPowerMin : Nat
  /-- OBS_RESET_GAP1 (R11). -/
  obsResetGap1 : Nat
  /-- OBS_RESET_GAP2 (R11). -/
  obsResetGap2 : Nat
  /-- OBS_EXEC_LONG (R11). -/
  obsExecLong : Nat
  /-- OBS_EXEC_SHORT (R11). -/
  obsExecShort : Nat
  /-- DISPLAY_ROWS (R11): 2, fixed by the addressing (D35), so no rule reads another value from it (log 28). -/
  displayRows : Nat
  /-- DISPLAY_COLS (R11). -/
  displayCols : Nat
  deriving DecidableEq, Repr

/-- DESIGN CHOICE (log 2), unsafe if leant on: the spec gives no pin mapping. This is the well-formed handle of its
own vector T-EXC: RS and E on the data port at bits 0 and 1, d_bit = [4, 5, 6, 7]. -/
def Handle.default : Handle :=
  { rsPort := 0, rsBit := 0, enPort := 0, enBit := 1, dPort := 0, d4Bit := 4, d5Bit := 5, d6Bit := 6, d7Bit := 7 }

/-- Every parameter at its default (R7, R8, R9, R11). DELTA_MAX is OPEN in the spec: no bound here, so the draws are
free (log 3, safe). -/
def Config.default : Config :=
  { handle := Handle.default
    tRsSetup := 1, tBusSettle := 40, tEnHigh := 40, tExecLong := 1600, tExecShort := 40, tChar := 40
    tPower := 100000, tReset1 := 5000, tReset2 := 100, tReset3 := 0, tFinal := 50000
    deltaMax := none
    cmdClear := 0x01, cmdHome := 0x02, cmdFuncset := 0x28, initDispctrl := 0x0F, initEntry := 0x06
    row1Base := 0x80, row2Base := 0xC0, nibReset := 0x3, nib4Bit := 0x2
    stringMode := .nulTerminated, invalidRowSendsData := true
    resetOut := { rs := false, e := false, d := 0 }, resetDir := { rs := false, e := false, d := 0 }
    obsPowerMin := 15000, obsResetGap1 := 4100, obsResetGap2 := 100, obsExecLong := 1520, obsExecShort := 37
    displayRows := 2, displayCols := 16 }

/-- The free value behind the δ draws (R26, R81, D12; log 3): nothing constrains it. The k-th draw of a run is
`freeDelta k`, brought under DELTA_MAX where there is a bound (`Config.delta`). -/
opaque Config.freeDelta : Nat → Nat

/-- The free value of a byte of the caller's memory that nothing has written, by its address (R41, R47; log 7): nothing
constrains it. -/
opaque Config.freeByte : Nat → Byte

end Sys2Proof
end

