-- ==== Sys2Proof/Syntax.lean ====
section
/-! DEFINITION. The instructions: one constructor for each of the 21 rows of spec/opcode_table.json. -/

namespace Sys2Proof

/-- The operations of the four formats: six requests (REQ), three internal composites (MACRO), six micro-operations
(UOP) and six command bytes (LCD_CMD). -/
inductive Instr where
  /-- LCD_INIT (R69, R108). -/
  | lcdInit
  /-- LCD_COMMAND b (R69, R93). -/
  | lcdCommand (b : Byte)
  /-- LCD_PRINT_CHAR b (R69, R94). -/
  | lcdPrintChar (b : Byte)
  /-- LCD_PRINT_CHAR_AT b, row, col (R69, R104). -/
  | lcdPrintCharAt (b row col : Byte)
  /-- LCD_PRINT_STRING s (R69, R96). -/
  | lcdPrintString (s : List Byte)
  /-- LCD_PRINT_STRING_AT s, row, col (R69, R105). -/
  | lcdPrintStringAt (s : List Byte) (row col : Byte)
  /-- STROBE_ENABLE (R71, R88). -/
  | strobeEnable
  /-- SEND_NIBBLE n (R71, R89). -/
  | sendNibble (n : Nibble)
  /-- SET_CURSOR row, col (R71, R102). -/
  | setCursor (row col : Byte)
  /-- CFG_OUT (R72, R82). -/
  | cfgOut
  /-- SET_RS v (R72, R83). -/
  | setRs (v : Bool)
  /-- SET_E v (R72, R84). -/
  | setE (v : Bool)
  /-- WRITE_D n (R72, R85). -/
  | writeD (n : Nibble)
  /-- DELAY arg (R72, R86). -/
  | delay (arg : BitVec 24)
  /-- FAULT arg (R72, R87). -/
  | fault (arg : BitVec 24)
  /-- The command byte CMD_CLEAR (R74, R92). -/
  | cmdClear
  /-- The command byte CMD_HOME (R74, R92). -/
  | cmdHome
  /-- The command byte CMD_FUNCSET (R74, R113). -/
  | cmdFuncset
  /-- The command byte INIT_DISPCTRL (R74, R115). -/
  | initDispctrl
  /-- The command byte INIT_ENTRY (R74, R116). -/
  | initEntry
  /-- The command byte "set DDRAM address" with its 7-bit address (R74, R101). -/
  | setDdramAddr (addr : BitVec 7)
  deriving DecidableEq, Repr

end Sys2Proof
end

