-- ==== Sys2Proof/Decode.lean ====
section
/-! DEFINITION. The decoder of the four encoded forms, total and rejecting by name (R68 to R76), and after it the
encoder, written from the same encoding tables. -/

namespace Sys2Proof

/-- REQ field op, bits 3:0 (R68). -/
def reqOp (w : BitVec 28) : Nibble := w.extractLsb' 0 4
/-- REQ field b, bits 11:4 (R68). -/
def reqB (w : BitVec 28) : Byte := w.extractLsb' 4 8
/-- REQ field row, bits 19:12 (R68). -/
def reqRow (w : BitVec 28) : Byte := w.extractLsb' 12 8
/-- REQ field col, bits 27:20 (R68). -/
def reqCol (w : BitVec 28) : Byte := w.extractLsb' 20 8

/-- A request's operation (R69); op 0x6 to 0xF spells none (R70, R76). A field the operation does not use is ignored. -/
def decodeReq (r : Req) : Except DecodeError Instr :=
  match (reqOp r.word).toNat with
  | 0x0 => .ok .lcdInit
  | 0x1 => .ok (.lcdCommand (reqB r.word))
  | 0x2 => .ok (.lcdPrintChar (reqB r.word))
  | 0x3 => .ok (.lcdPrintCharAt (reqB r.word) (reqRow r.word) (reqCol r.word))
  | 0x4 => .ok (.lcdPrintString r.s)
  | 0x5 => .ok (.lcdPrintStringAt r.s (reqRow r.word) (reqCol r.word))
  | _ => .error (.reservedOp (reqOp r.word))

/-- The operations with a string operand, op 0x4 and 0x5 (R69). -/
def usesString (w : BitVec 28) : Bool := reqOp w == 0x4 || reqOp w == 0x5

/-- UOP field code, bits 2:0 (R72). -/
def uopCode (w : BitVec 32) : BitVec 3 := w.extractLsb' 0 3
/-- UOP field v, bit 3 (R72). -/
def uopV (w : BitVec 32) : Bool := w.getLsbD 3
/-- UOP field n, bits 7:4 (R72). -/
def uopN (w : BitVec 32) : Nibble := w.extractLsb' 4 4
/-- UOP field arg, bits 31:8 (R72). -/
def uopArg (w : BitVec 32) : BitVec 24 := w.extractLsb' 8 24

/-- A micro-op word (R72); codes 6 and 7 are reserved (R76). -/
def decodeUop (w : BitVec 32) : Except DecodeError Instr :=
  match (uopCode w).toNat with
  | 0 => .ok .cfgOut
  | 1 => .ok (.setRs (uopV w))
  | 2 => .ok (.setE (uopV w))
  | 3 => .ok (.writeD (uopN w))
  | 4 => .ok (.delay (uopArg w))
  | 5 => .ok (.fault (uopArg w))
  | _ => .error (.reservedUop (uopCode w))

/-- An internal composite (R71); codes 0x3 and above are unused (R76). -/
def decodeMacro (code n : Nibble) (row col : Byte) : Except DecodeError Instr :=
  match code.toNat with
  | 0 => .ok .strobeEnable
  | 1 => .ok (.sendNibble n)
  | 2 => .ok (.setCursor row col)
  | _ => .error (.unusedMacro code)

/-- A command byte (R74). Five of the rows are values of parameters (R8), tested by equality on all 8 bits; the sixth
is every byte with bit 7 set. DESIGN CHOICE (log 26), safe: R74 gives no priority where two parameters coincide or one has
bit 7 set; the first row of the order clear, home, funcset, dispctrl, entry, set DDRAM address is taken, and the byte sent
is the same in every one. -/
def decodeCmd (c : Config) (b : Byte) : Except DecodeError Instr :=
  if b = c.cmdClear then .ok .cmdClear
  else if b = c.cmdHome then .ok .cmdHome
  else if b = c.cmdFuncset then .ok .cmdFuncset
  else if b = c.initDispctrl then .ok .initDispctrl
  else if b = c.initEntry then .ok .initEntry
  else if b.msb then .ok (.setDdramAddr (b.extractLsb' 0 7))
  else .error (.unclassifiedCmd b)

/-- One entry of the pending list. -/
def decodeItem (c : Config) (it : Item) : Except DecodeError Instr :=
  match it with
  | .uop w => decodeUop w
  | .macroOp code n row col => decodeMacro code n row col
  | .cmd b => decodeCmd c b

/-- Any encoded instruction. -/
def decode (c : Config) (x : Code) : Except DecodeError Instr :=
  match x with
  | .req r => decodeReq r
  | .item it => decodeItem c it

/-- The REQ word of R68: op, then b, row and col above it. -/
def reqWord (op : Nibble) (b row col : Byte) : BitVec 28 := col ++ row ++ b ++ op

/-- The UOP word of R72: code, then v, n and arg above it. -/
def uopWord (code : BitVec 3) (v : Bool) (n : Nibble) (arg : BitVec 24) : BitVec 32 := arg ++ n ++ BitVec.ofBool v ++ code

/-- The byte of a set-DDRAM-address command: bit 7 set, the address in bits 6:0 (R42, R74). -/
def ddramByte (addr : BitVec 7) : Byte := 1#1 ++ addr

/-- The encoding of an instruction, unused fields zero (R68, R69, R71, R72, R74). -/
def encode (c : Config) : Instr → Code
  | .lcdInit => .req ⟨reqWord 0x0 0 0 0, []⟩
  | .lcdCommand b => .req ⟨reqWord 0x1 b 0 0, []⟩
  | .lcdPrintChar b => .req ⟨reqWord 0x2 b 0 0, []⟩
  | .lcdPrintCharAt b row col => .req ⟨reqWord 0x3 b row col, []⟩
  | .lcdPrintString s => .req ⟨reqWord 0x4 0 0 0, s⟩
  | .lcdPrintStringAt s row col => .req ⟨reqWord 0x5 0 row col, s⟩
  | .strobeEnable => .item (.macroOp 0x0 0 0 0)
  | .sendNibble n => .item (.macroOp 0x1 n 0 0)
  | .setCursor row col => .item (.macroOp 0x2 0 row col)
  | .cfgOut => .item (.uop (uopWord 0 false 0 0))
  | .setRs v => .item (.uop (uopWord 1 v 0 0))
  | .setE v => .item (.uop (uopWord 2 v 0 0))
  | .writeD n => .item (.uop (uopWord 3 false n 0))
  | .delay arg => .item (.uop (uopWord 4 false 0 arg))
  | .fault arg => .item (.uop (uopWord 5 false 0 arg))
  | .cmdClear => .item (.cmd c.cmdClear)
  | .cmdHome => .item (.cmd c.cmdHome)
  | .cmdFuncset => .item (.cmd c.cmdFuncset)
  | .initDispctrl => .item (.cmd c.initDispctrl)
  | .initEntry => .item (.cmd c.initEntry)
  | .setDdramAddr addr => .item (.cmd (ddramByte addr))

/-- Whether a decoder reads an instruction from an encoded form. -/
def decodes (c : Config) (x : Code) : Bool :=
  match decode c x with
  | .ok _ => true
  | .error _ => false

/-- A word of the opcode table in one of the four forms. The table numbers each form's own word and the forms share
numbers (LCD_INIT, CFG_OUT and STROBE_ENABLE are all 0), and a word does not say its form: the reader of it does
(R67). DESIGN CHOICE (log 15): a word of at most one byte is read in the narrowest form that has a row for it, in the
order LCD_CMD, MACRO, REQ, UOP; a wider one as a REQ where its op is one, else as a UOP. An operand beside the word
(n, row, col, s) is zero or empty. -/
def tableCode (nbits w : Nat) : Code :=
  let cmd : Code := .item (.cmd (BitVec.ofNat 8 w))
  let mac : Code := .item (.macroOp (BitVec.ofNat 4 w) 0 0 0)
  let req : Code := .req ⟨BitVec.ofNat 28 w, []⟩
  let uop : Code := .item (.uop (BitVec.ofNat 32 w))
  if nbits ≤ 8 then
    if decodes Config.default cmd then cmd
    else if w < 16 && decodes Config.default mac then mac
    else if decodes Config.default req then req
    else uop
  else if w < 2 ^ 28 && decodes Config.default req then req
  else uop

/-- The instruction the decoder reads from a word of the opcode table, at the default parameters. -/
def decodeTableWord (nbits w : Nat) : Option Instr :=
  match decode Config.default (tableCode nbits w) with
  | .ok i => some i
  | .error _ => none

end Sys2Proof
end

