-- ==== Sys2Proof/Machine/State.lean ====
section
/-! DEFINITION. The state of the whole model as plain data (R20 to R36, R56), the reasons a step can stop, and the
state after reset (R36, R138). -/

namespace Sys2Proof.Machine

/-- The two control lines that a Pin event can name (R29). -/
inductive Line where
  | rs
  | e
  deriving DecidableEq, Repr

/-- The observation (R29). `latch` carries `none` for a line that E's edge samples while it is not driven (R54). -/
inductive Event where
  /-- Begin(t, r): request r accepted. -/
  | reqBegin (t : Nat) (r : Instr)
  /-- End(t, r): request r completed. -/
  | reqEnd (t : Nat) (r : Instr)
  /-- Cfg(t): the six lines made outputs. -/
  | cfg (t : Nat)
  /-- Pin(t, L, v): line L written with v. -/
  | pin (t : Nat) (l : Line) (v : Bool)
  /-- Data(t, n): the data lines written with nibble n. -/
  | data (t : Nat) (n : Nibble)
  /-- Latch(t, rs, n): the controller sampled RS and D7..D4. -/
  | latch (t : Nat) (rs : Option Bool) (n : Option Nibble)
  /-- Fault(t, reason). -/
  | fault (t : Nat) (reason : BitVec 24)
  deriving DecidableEq, Repr

/-- The refusal marks (R30, R122). -/
inductive RefuseMark where
  /-- REFUSE_BAD_HANDLE, code 0x10: the handle is not well-formed, at launch (R124). -/
  | badHandle
  /-- REFUSE_BAD_REQUEST, code 0x11: REQ op 0x6 to 0xF, at the host move (R125). -/
  | badRequest
  deriving DecidableEq, Repr

/-- The controller's interface mode (R56); `m4l` holds the high nibble already latched, R56's `pend`. -/
inductive ObsMode where
  | unknown
  | m8
  | m4h
  | m4l (rs : Bool) (hi : Nibble)
  deriving DecidableEq, Repr

/-- The controller's address counter (R56): a DDRAM address, CG, or ⊥. -/
inductive AddrCounter where
  | ddram (a : BitVec 7)
  | cg
  | unknown
  deriving DecidableEq, Repr

/-- The display shift (R56): 0 or ⊥. -/
inductive Shift where
  | zero
  | unknown
  deriving DecidableEq, Repr

/-- The reference observer O (R56). `none` is ⊥, the spec's own unknown. `ddram` lists the known bytes; an address it
does not list is ⊥. -/
structure Observer where
  mode : ObsMode
  k : Fin 3
  tk : Option Nat
  busyUntil : Nat
  func : Option Byte
  dctl : Option Byte
  entry : Option Byte
  ac : AddrCounter
  shift : Shift
  ddram : List Host.Cell
  deriving DecidableEq, Repr

/-- One request the host will issue (R34, R137): its think-time w, the bytes the host stores in its own memory before
it (R48), the REQ word, and the string object's start address and size (R41). -/
structure HostReq where
  think : Nat
  stores : List Host.Cell
  word : BitVec 28
  addr : Nat
  len : Nat
  deriving DecidableEq, Repr

end Sys2Proof.Machine

namespace Sys2Proof.Machine

/-- The state of the model: everything the spec gives the machine. The line latches and direction bits of R21 and R22
are bits of `ports` and `ddrs` at the handle's pins. -/
structure State where
  /-- The handle and the parameters: written by no step (R32, log 1). -/
  cfg : Config
  /-- PORT(p) for every port (R38); an unlisted register holds 0. -/
  ports : List Host.Cell
  /-- DDR(p), the direction register paired with each port (R38); an unlisted register holds 0. -/
  ddrs : List Host.Cell
  /-- Time in µs (R26). -/
  t : Nat
  /-- The request being executed (R27). -/
  cur : Option Instr
  /-- The micro-ops still to execute (R27). -/
  uq : List Item
  /-- The sequencer index, the block's program counter (R28). -/
  upc : Nat
  /-- The events so far, oldest first (R29). -/
  trace : List Event
  /-- The fault mark: a reason code (R30, R87). -/
  fault : Option (BitVec 24)
  /-- The refusal mark (R30). -/
  refused : Option RefuseMark
  /-- init_count, a ghost (R31). -/
  initCount : Nat
  /-- The controller as the reference observer knows it (R33, R56). -/
  obs : Observer
  /-- The caller's memory (R41); a byte that is not listed has a free value (log 7). -/
  mem : List Host.Cell
  /-- The host's requests still to come (R32, R34). -/
  hostq : List HostReq
  /-- The model's own counter of δ draws taken (log 4). -/
  draws : Nat
  deriving DecidableEq, Repr

/-- Why a step stops with a fault. -/
inductive Fault where
  /-- Raised by step in a state whose fault mark is set (R30, R34, U25): no move exists. Safe: it stops where the spec
  has no step. -/
  | stopped (reason : BitVec 24)
  /-- Raised by step in an unmarked state with an empty pending list and a current request: R34 gives it no move, and
  no run reaches it (log 13). Safe. -/
  | noMove
  deriving DecidableEq, Repr

/-- Why a step refuses. -/
inductive Refusal where
  /-- Raised by an arm of exec for an instruction without a meaning: no arm does. Safe. -/
  | notModelled (mnemonic : String)
  /-- Raised by step in a state whose refusal mark is set (R30, R34, U25): no move exists. Safe. -/
  | stopped (m : RefuseMark)
  /-- Raised by step when the head of the pending list decodes to no instruction (R76, U17): no expansion produces
  one. Safe. -/
  | undecodable (e : DecodeError)
  deriving DecidableEq, Repr

/-- The observer at t = 0: mode UNKNOWN, k = 0, busy_until = 0, every other component ⊥ (R57, R140). -/
def Observer.powerOn : Observer :=
  { mode := .unknown, k := 0, tk := none, busyUntil := 0, func := none, dctl := none, entry := none, ac := .unknown
    shift := .unknown, ddram := [] }

/-- The state at t = 0 at the default parameters (R36, R138). RESET_OUT and RESET_DIR are 0 there, so no port register
is listed; every other field as the table of R36 has it. No request is queued: the block waits for the host (R138). -/
def State.reset : State :=
  { cfg := Config.default, ports := [], ddrs := [], t := 0, cur := none, uq := [], upc := 0, trace := []
    fault := none, refused := none, initCount := 0, obs := Observer.powerOn, mem := [], hostq := [], draws := 0 }

end Sys2Proof.Machine
end

