-- ==== Sys2Proof/Machine/Operands.lean ====
section
/-! DEFINITION. Every operand form: the nibble split, the mask write's mask and value, the address function, the
long-command test, string payloads, the latch frame (R73, R75) and the δ draw. -/

namespace Sys2Proof.Machine

/-- b[7:4] (R75). -/
def hiNibble (b : Byte) : Nibble := b.extractLsb' 4 4

/-- b[3:0] (R75). -/
def loNibble (b : Byte) : Nibble := b.extractLsb' 0 4

/-- The byte of a nibble pair: (hi << 4) | lo (R61). -/
def joinNibbles (hi lo : Nibble) : Byte := hi ++ lo

/-- The mask of a data write: m = OR over i of 1 << d_bit[i] (R40). -/
def dMask (h : Handle) : Byte :=
  (1#8 <<< h.d4Bit.val) ||| (1#8 <<< h.d5Bit.val) ||| (1#8 <<< h.d6Bit.val) ||| (1#8 <<< h.d7Bit.val)

/-- Bit i of a nibble as a byte, 0 or 1. -/
def nibbleBit (n : Nibble) (i : Nat) : Byte := (BitVec.ofBool (n.getLsbD i)).setWidth 8

/-- The value of a data write: v = OR over i of n[i] << d_bit[i], nibble bit i on line D(4+i) (R12, R40). -/
def dValue (h : Handle) (n : Nibble) : Byte :=
  (nibbleBit n 0 <<< h.d4Bit.val) ||| (nibbleBit n 1 <<< h.d5Bit.val) |||
    (nibbleBit n 2 <<< h.d6Bit.val) ||| (nibbleBit n 3 <<< h.d7Bit.val)

/-- The nibble on D7..D4 in a port register: out[D][i] is bit d_bit[i] (R21). -/
def busNibble (h : Handle) (b : Byte) : Nibble :=
  BitVec.ofBool (b.getLsbD h.d7Bit.val) ++ BitVec.ofBool (b.getLsbD h.d6Bit.val) ++
    BitVec.ofBool (b.getLsbD h.d5Bit.val) ++ BitVec.ofBool (b.getLsbD h.d4Bit.val)

/-- (base + col - 1) mod 256, the sum on integers (R75, R101). -/
def addressByte (base col : Byte) : Byte := BitVec.ofInt 8 ((base.toNat : Int) + (col.toNat : Int) - 1)

/-- ddram_cmd(row, col): the command byte that addresses a position, none for a row outside 1 and 2 (R101). -/
def ddramCmd (c : Config) (row col : Byte) : Option Byte :=
  if row = 1 then some (addressByte c.row1Base col)
  else if row = 2 then some (addressByte c.row2Base col)
  else none

/-- The valid positions: row 1 or 2, as the addressing fixes them, and column 1 to DISPLAY_COLS (R106, D35). The block
checks neither. -/
def validPosition (c : Config) (row col : Byte) : Bool :=
  (row == 1 || row == 2) && 1 ≤ col.toNat && col.toNat ≤ c.displayCols

/-- is_long(b): equality with CMD_CLEAR or CMD_HOME on all 8 bits (R92). -/
def isLong (c : Config) (b : Byte) : Bool := b == c.cmdClear || b == c.cmdHome

/-- The wait after command b (R93). -/
def commandWait (c : Config) (b : Byte) : Nat := if isLong c b then c.tExecLong else c.tExecShort

/-- payload(s): the bytes that are sent (R95). -/
def payload (m : StringMode) (s : List Byte) : List Byte :=
  match m with
  | .nulTerminated => s.takeWhile (fun b => b != 0x00)
  | .lengthBounded => s

/-- terminated(s) (R95). -/
def terminated (m : StringMode) (s : List Byte) : Bool :=
  match m with
  | .nulTerminated => s.any (fun b => b == 0x00)
  | .lengthBounded => true

/-- The LATCH frame: bit 4 = RS, bits 3:0 = D7..D4 (R73). -/
def latchFrame (rs : Bool) (n : Nibble) : BitVec 5 := BitVec.ofBool rs ++ n

/-- The two LATCH frames of a byte, high nibble first, with one RS (R43, R73). -/
def byteFrames (rs : Bool) (b : Byte) : List (BitVec 5) := [latchFrame rs (hiNibble b), latchFrame rs (loNibble b)]

end Sys2Proof.Machine

namespace Sys2Proof

/-- The k-th draw δ: free, and at most DELTA_MAX where there is a bound (R26, R81, D12). Every value the bound allows
can be the draw. -/
def Config.delta (c : Config) (k : Nat) : Nat :=
  match c.deltaMax with
  | none => Config.freeDelta k
  | some 0 => 0
  | some (d + 1) => Config.freeDelta k % (d + 2)

end Sys2Proof
end

