-- ==== Sys2Proof/Machine/Expand.lean ====
section
/-! DEFINITION. The expansions seq_<name> (R14): pure functions of the operands and the parameters, each a list of
UOP words, and the states of the initialization machine (R107). -/

namespace Sys2Proof.Machine

/-- The word of CFG_OUT (R72). -/
def uCfgOut : Item := .uop (uopWord 0 false 0 0)
/-- The word of SET_RS v (R72). -/
def uSetRs (v : Bool) : Item := .uop (uopWord 1 v 0 0)
/-- The word of SET_E v (R72). -/
def uSetE (v : Bool) : Item := .uop (uopWord 2 v 0 0)
/-- The word of WRITE_D n (R72). -/
def uWriteD (n : Nibble) : Item := .uop (uopWord 3 false n 0)
/-- The word of DELAY n (R72). -/
def uDelay (n : Nat) : Item := .uop (uopWord 4 false 0 (BitVec.ofNat 24 n))
/-- The word of FAULT r (R72). -/
def uFault (r : BitVec 24) : Item := .uop (uopWord 5 false 0 r)

/-- The largest argument of one DELAY (R72, R86). -/
def delayMax : Nat := 16777215

/-- A wait of n µs: one DELAY, or several whose arguments sum to n where n does not fit one (R72). The order in which
a long wait is split is the model's (log 19). -/
def delays (n : Nat) : List Item :=
  List.replicate ((n - 1) / delayMax) (uDelay delayMax) ++ [uDelay (n - (n - 1) / delayMax * delayMax)]

/-- seq_strobe() (R88). -/
def seqStrobe (c : Config) : List Item :=
  delays c.tBusSettle ++ [uSetE true] ++ delays c.tEnHigh ++ [uSetE false]

/-- seq_nibble(n) (R89). -/
def seqNibble (c : Config) (n : Nibble) : List Item := uWriteD n :: seqStrobe c

/-- seq_frame(b): high nibble first (R43, R91). -/
def seqFrame (c : Config) (b : Byte) : List Item := seqNibble c (hiNibble b) ++ seqNibble c (loNibble b)

/-- A transaction: RS, its settle wait, the frame, the trailing wait (R93, R94). -/
def seqTransaction (c : Config) (rs : Bool) (b : Byte) (trailing : Nat) : List Item :=
  uSetRs rs :: delays c.tRsSetup ++ seqFrame c b ++ delays trailing

/-- seq_cmd(b) (R93). -/
def seqCmd (c : Config) (b : Byte) : List Item := seqTransaction c false b (commandWait c b)

/-- seq_char(b) (R94). -/
def seqChar (c : Config) (b : Byte) : List Item := seqTransaction c true b c.tChar

/-- seq_string(s) (R96). -/
def seqString (c : Config) (s : List Byte) : List Item :=
  (payload c.stringMode s).flatMap (seqChar c) ++ if terminated c.stringMode s then [] else [uFault 1]

/-- seq_setcursor(row, col) (R102). -/
def seqSetCursor (c : Config) (row col : Byte) : List Item :=
  match ddramCmd c row col with
  | some a => seqCmd c a
  | none => []

/-- seq_at(row, col, body): the address command, then the body; for a row outside 1 and 2 no address command, and the
body only if INVALID_ROW_SENDS_DATA (R103). -/
def seqAt (c : Config) (row col : Byte) (body : List Item) : List Item :=
  seqSetCursor c row col ++ if row = 1 ∨ row = 2 ∨ c.invalidRowSendsData = true then body else []

/-- The states of the initialization machine (R107). -/
inductive InitState where
  | powerSettle
  | reset1
  | reset2
  | reset3
  | mode4Bit
  | functionSet
  | displayClear
  | cursorMode
  | entryMode
  | finalSettle
  | ready
  deriving DecidableEq, Repr

/-- The micro-ops of each state but READY, in order (R107, R109 to R117). -/
def initSegments (c : Config) : List (InitState × List Item) :=
  [ (.powerSettle, [uCfgOut, uSetRs false, uSetE false] ++ delays c.tPower),
    (.reset1, seqNibble c c.nibReset ++ delays c.tReset1),
    (.reset2, seqNibble c c.nibReset ++ delays c.tReset2),
    (.reset3, seqNibble c c.nibReset ++ delays c.tReset3),
    (.mode4Bit, seqNibble c c.nib4Bit),
    (.functionSet, seqCmd c c.cmdFuncset),
    (.displayClear, seqCmd c c.cmdClear),
    (.cursorMode, seqCmd c c.initDispctrl),
    (.entryMode, seqCmd c c.initEntry),
    (.finalSettle, delays c.tFinal) ]

/-- seq_init() (R109). -/
def seqInit (c : Config) : List Item := (initSegments c).flatMap (fun p => p.2)

/-- The state whose micro-ops hold index `upc`, READY past the last. -/
def segmentAt (l : List (InitState × List Item)) (upc : Nat) : InitState :=
  match l with
  | [] => .ready
  | (st, ops) :: l => if upc < ops.length then st else segmentAt l (upc - ops.length)

/-- The state of the initialization machine: a pure function of upc while cur = LCD_INIT (R107). -/
def initStateAt (c : Config) (upc : Nat) : InitState := segmentAt (initSegments c) upc

/-- The state of the initialization machine in a state of the model, while LCD_INIT is the current request (R107).
DESIGN CHOICE (log 27), safe: End clears `cur` as upc reaches 80, where R107 puts READY and no longer defines the
function; the answer is then none, and READY is `initStateAt` at 80. -/
def State.initState (s : State) : Option InitState :=
  if s.cur = some .lcdInit then some (initStateAt s.cfg s.upc) else none

/-- expand: the micro-op list of an instruction (R97 for requests, R71 for composites, R74 for command bytes; a
micro-op is its own word). -/
def expand (c : Config) (i : Instr) : List Item :=
  match i with
  | .lcdInit => seqInit c
  | .lcdCommand b => seqCmd c b
  | .lcdPrintChar b => seqChar c b
  | .lcdPrintCharAt b row col => seqAt c row col (seqChar c b)
  | .lcdPrintString s => seqString c s
  | .lcdPrintStringAt s row col => seqAt c row col (seqString c s)
  | .strobeEnable => seqStrobe c
  | .sendNibble n => seqNibble c n
  | .setCursor row col => seqSetCursor c row col
  | .cfgOut => [uCfgOut]
  | .setRs v => [uSetRs v]
  | .setE v => [uSetE v]
  | .writeD n => [uWriteD n]
  | .delay arg => [uDelay arg.toNat]
  | .fault arg => [uFault arg]
  | .cmdClear => seqCmd c c.cmdClear
  | .cmdHome => seqCmd c c.cmdHome
  | .cmdFuncset => seqCmd c c.cmdFuncset
  | .initDispctrl => seqCmd c c.initDispctrl
  | .initEntry => seqCmd c c.initEntry
  | .setDdramAddr addr => seqCmd c (ddramByte addr)

end Sys2Proof.Machine
end

