-- ==== Sys2Proof/Machine/Flags.lean ====
section
/-! DEFINITION. The block has no flags and no condition codes (R24). What it has instead are its marks, with their
codes (R30, R122), and the conditions busy and idle (R27, R35). -/

namespace Sys2Proof.Machine

/-- The reason code FLT_UNTERMINATED (R72, R122). -/
def fltUnterminated : BitVec 24 := 1

/-- The code of a refusal mark (R122). -/
def RefuseMark.code (m : RefuseMark) : Byte :=
  match m with
  | .badHandle => 0x10
  | .badRequest => 0x11

/-- The engine is busy iff uq ≠ [] (R27). -/
abbrev State.busy (s : State) : Prop := s.uq ≠ []

/-- The engine is idle iff uq = [] and cur = none (R35). -/
abbrev State.idle (s : State) : Prop := s.uq = [] ∧ s.cur = none

/-- A mark is set: no move exists (R30, R34). -/
abbrev State.marked (s : State) : Prop := s.fault ≠ none ∨ s.refused ≠ none

end Sys2Proof.Machine
end

