-- ==== Sys2Proof/Machine/Memory.lean ====
section
/-! DEFINITION. Lists of (address, byte) cells in one canonical form: the caller's memory (R41), the port and
direction registers (R38) and the controller's DDRAM (R42, R56) are all held so.

What an unlisted address reads as: a free value in the caller's memory (`callerByte`, log 7); ⊥ in the DDRAM (R56), the
`none` of `Cells.read`; 0 in a port or direction register (`unlistedReg`, log 5). -/

namespace Sys2Proof.Machine

/-- The canonical form: addresses strictly rising. -/
abbrev Cells.wf (m : List Host.Cell) : Prop := m.Pairwise (fun x y => x.1 < y.1)

/-- The byte listed at an address, if one is. -/
def Cells.read (m : List Host.Cell) (a : Nat) : Option Byte :=
  match m with
  | [] => none
  | (k, x) :: m => if k = a then some x else Cells.read m a

/-- List a byte at an address, keeping the order. -/
def Cells.write (m : List Host.Cell) (a : Nat) (v : Byte) : List Host.Cell :=
  match m with
  | [] => [(a, v)]
  | (k, x) :: m =>
    if a < k then (a, v) :: (k, x) :: m
    else if a = k then (a, v) :: m
    else (k, x) :: Cells.write m a v

/-- Take an address off the list, wherever it is listed. -/
def Cells.erase (m : List Host.Cell) (a : Nat) : List Host.Cell :=
  match m with
  | [] => []
  | (k, x) :: m => if k = a then Cells.erase m a else (k, x) :: Cells.erase m a

/-- List several bytes, first to last. -/
def Cells.writeAll (m : List Host.Cell) (cells : List Host.Cell) : List Host.Cell :=
  cells.foldl (fun m c => Cells.write m c.1 c.2) m

/-- MemRead(a, 1) of the caller's memory (R13, R41): the byte written there, else a free value (R47, log 7). -/
def callerByte (m : List Host.Cell) (a : Nat) : Byte := (Cells.read m a).getD (Config.freeByte a)

/-- The bytes at n increasing addresses from a: MemRead(a + i, 1) for i < n (R13, R41). -/
def Cells.readObject (m : List Host.Cell) (a : Nat) (n : Nat) : List Byte :=
  match n with
  | 0 => []
  | n + 1 => callerByte m a :: Cells.readObject m (a + 1) n

/-- What a port or direction register that is not listed holds (R9, G16; log 5). -/
def unlistedReg : Byte := 0

/-- The canonical form of a register space: rising addresses, and no register listed at what an unlisted one holds. -/
abbrev Regs.wf (m : List Host.Cell) : Prop := Cells.wf m ∧ ∀ c ∈ m, c.2 ≠ unlistedReg

/-- The content of a register. -/
def Regs.read (m : List Host.Cell) (p : PortRef) : Byte := (Cells.read m p).getD unlistedReg

/-- Write a register. -/
def Regs.write (m : List Host.Cell) (p : PortRef) (v : Byte) : List Host.Cell :=
  if v = unlistedReg then Cells.erase m p else Cells.write m p v

/-- The byte with only bit k set. -/
def bitMask (k : Fin 8) : Byte := 1#8 <<< k.val

/-- Bit k of a register set to v: set_bit, clear_bit and configure_as_output of R39 are this on one register. -/
def Regs.setLevel (m : List Host.Cell) (p : PortRef) (k : Fin 8) (v : Bool) : List Host.Cell :=
  Regs.write m p (if v then Regs.read m p ||| bitMask k else Regs.read m p &&& ~~~(bitMask k))

/-- mask_write on one register: the bits outside `mask` are unchanged (R39). -/
def Regs.maskWrite (m : List Host.Cell) (p : PortRef) (mask v : Byte) : List Host.Cell :=
  Regs.write m p ((Regs.read m p &&& ~~~mask) ||| (v &&& mask))

/-- Bit k of a register. -/
def Regs.bit (m : List Host.Cell) (p : PortRef) (k : Fin 8) : Bool := (Regs.read m p).getLsbD k.val

/-- Every DDRAM address listed with one byte: DDRAM "all 0x20" of R62. -/
def Cells.fill (v : Byte) : List Host.Cell := (List.range 128).map (fun a => (a, v))

end Sys2Proof.Machine
end

