-- ==== Sys2Proof/Machine/Observer.lean ====
section
/-! DEFINITION. The controller as the reference observer of R55 to R66: what each latch does to it, the view and
ready. -/

namespace Sys2Proof.Machine

/-- Invalidate: everything known of the display is lost (R56). -/
def Observer.invalidate (o : Observer) : Observer :=
  { o with ddram := [], ac := .unknown, func := none, dctl := none, entry := none, shift := .unknown }

/-- Invalidate, mode ← UNKNOWN, k ← 0 (R58, R61, R62). -/
def Observer.lose (o : Observer) : Observer := { o.invalidate with mode := .unknown, k := 0 }

/-- t - tk ≥ gap, on integers. With tk = ⊥ nothing is known of the gap, and the test fails (log 17). -/
def gapReached (t : Nat) (tk : Option Nat) (gap : Nat) : Bool :=
  match tk with
  | none => false
  | some x => decide (x + gap ≤ t)

/-- A blind-reset pulse in mode UNKNOWN (R59). -/
def Observer.blindPulse (c : Config) (o : Observer) (t : Nat) : Observer :=
  if o.k = 0 ∧ c.obsPowerMin ≤ t then { o with k := 1, tk := some t }
  else if o.k = 1 ∧ gapReached t o.tk c.obsResetGap1 = true then { o with k := 2, tk := some t }
  else if o.k = 2 ∧ gapReached t o.tk c.obsResetGap2 = true then
    { o with k := 0, mode := .m8, func := none, busyUntil := t + c.obsExecShort }
  else { o with k := if c.obsPowerMin ≤ t then 1 else 0, tk := some t }

/-- A latch in mode UNKNOWN (R59). A sample of ⊥ is no blind-reset pulse. -/
def Observer.latchUnknown (c : Config) (o : Observer) (t : Nat) (rs : Bool) (n : Nibble) : Observer :=
  if rs = false ∧ n = c.nibReset then o.blindPulse c t else { o with k := 0 }

/-- A latch in mode M8, after the busy check (R60). -/
def Observer.latchM8 (c : Config) (o : Observer) (t : Nat) (rs : Bool) (n : Nibble) : Observer :=
  if rs = false ∧ n = 0x3 then { o with func := none, busyUntil := t + c.obsExecShort }
  else if rs = false ∧ n = 0x2 then { o with mode := .m4h, func := none, busyUntil := t + c.obsExecShort }
  else { o with ddram := [], ac := .unknown, dctl := none, entry := none, shift := .unknown, busyUntil := t + c.obsExecLong }

/-- func ≠ ⊥ and func[3] = 1: 2-line mode (R64). -/
def Observer.twoLine (o : Observer) : Bool :=
  match o.func with
  | none => false
  | some f => f.getLsbD 3

/-- The DDRAM addresses of 2-line mode: 0x00..0x27 and 0x40..0x67 (R64). -/
def ddramExists (a : BitVec 7) : Bool := a.toNat ≤ 0x27 || (0x40 ≤ a.toNat && a.toNat ≤ 0x67)

/-- valid(a) (R64). -/
def Observer.valid (o : Observer) (a : BitVec 7) : Bool := o.twoLine && ddramExists a

/-- ac_succ (R64); an address that 2-line mode does not have goes to ⊥ (log 16). -/
def Observer.acSucc (o : Observer) (ac : AddrCounter) : AddrCounter :=
  if o.twoLine then
    match ac with
    | .ddram a =>
      if a = 0x27 then .ddram 0x40
      else if a = 0x67 then .ddram 0x00
      else if ddramExists a then .ddram (a + 1)
      else .unknown
    | .cg => .cg
    | .unknown => .unknown
  else .unknown

/-- ac_pred (R64); an address that 2-line mode does not have goes to ⊥ (log 16). -/
def Observer.acPred (o : Observer) (ac : AddrCounter) : AddrCounter :=
  if o.twoLine then
    match ac with
    | .ddram a =>
      if a = 0x40 then .ddram 0x27
      else if a = 0x00 then .ddram 0x67
      else if ddramExists a then .ddram (a - 1)
      else .unknown
    | .cg => .cg
    | .unknown => .unknown
  else .unknown

/-- The instruction classes of R62, by the position of the leading 1 bit. -/
inductive CtlClass where
  | undefinedByte
  | clearDisplay
  | returnHome
  | entryModeSet
  | displayControl
  | shiftMove
  | functionSet
  | setCgram
  | setDdram
  deriving DecidableEq, Repr

/-- The class of an instruction byte (R62). -/
def ctlClass (b : Byte) : CtlClass :=
  if b.getLsbD 7 then .setDdram
  else if b.getLsbD 6 then .setCgram
  else if b.getLsbD 5 then .functionSet
  else if b.getLsbD 4 then .shiftMove
  else if b.getLsbD 3 then .displayControl
  else if b.getLsbD 2 then .entryModeSet
  else if b.getLsbD 1 then .returnHome
  else if b.getLsbD 0 then .clearDisplay
  else .undefinedByte

/-- exec(0, b, t): the controller executes instruction byte b (R62). -/
def Observer.execInstruction (c : Config) (o : Observer) (b : Byte) (t : Nat) : Observer :=
  match ctlClass b with
  | .undefinedByte => o.lose
  | .clearDisplay =>
    { o with ddram := Cells.fill 0x20, ac := .ddram 0x00, entry := o.entry.map (fun e => e ||| 0x02), shift := .zero
             busyUntil := t + c.obsExecLong }
  | .returnHome => { o with ac := .ddram 0x00, shift := .zero, busyUntil := t + c.obsExecLong }
  | .entryModeSet => { o with entry := some b, busyUntil := t + c.obsExecShort }
  | .displayControl => { o with dctl := some b, busyUntil := t + c.obsExecShort }
  | .shiftMove =>
    if b.getLsbD 3 then { o with shift := .unknown, busyUntil := t + c.obsExecShort }
    else if b.getLsbD 2 then { o with ac := o.acSucc o.ac, busyUntil := t + c.obsExecShort }
    else { o with ac := o.acPred o.ac, busyUntil := t + c.obsExecShort }
  | .functionSet =>
    { o with func := some b, mode := if b.getLsbD 4 then .m8 else .m4h, busyUntil := t + c.obsExecShort }
  | .setCgram => { o with ac := .cg, busyUntil := t + c.obsExecShort }
  | .setDdram =>
    { o with ac := if o.valid (b.extractLsb' 0 7) then .ddram (b.extractLsb' 0 7) else .unknown
             busyUntil := t + c.obsExecShort }

/-- Where the address counter goes after a character write at a DDRAM address (R63). -/
def Observer.acAfterWrite (o : Observer) : AddrCounter :=
  match o.entry with
  | none => .unknown
  | some e => if e.getLsbD 1 then o.acSucc o.ac else o.acPred o.ac

/-- The display shift after a character write at a DDRAM address (R63). -/
def Observer.shiftAfterWrite (o : Observer) : Shift :=
  match o.entry with
  | none => o.shift
  | some e => if e.getLsbD 0 then .unknown else o.shift

/-- exec(1, b, t): a character write (R63). A CGRAM write leaves the DDRAM unchanged. -/
def Observer.execCharacter (c : Config) (o : Observer) (b : Byte) (t : Nat) : Observer :=
  match o.ac with
  | .ddram a =>
    { o with ddram := Cells.write o.ddram a.toNat b, ac := o.acAfterWrite, shift := o.shiftAfterWrite
             busyUntil := t + c.obsExecShort }
  | .cg => { o with busyUntil := t + c.obsExecShort }
  | .unknown => { o with ddram := [], busyUntil := t + c.obsExecShort }

/-- The controller executes a whole byte: an instruction with RS = 0, a character with RS = 1 (R61). -/
def Observer.execByte (c : Config) (o : Observer) (rs : Bool) (b : Byte) (t : Nat) : Observer :=
  if rs then o.execCharacter c b t else o.execInstruction c b t

/-- The second nibble of a pair, after the busy check; mode is M4H before the byte is executed (R61). -/
def Observer.latchLow (c : Config) (o : Observer) (t : Nat) (rs0 : Bool) (hi : Nibble) (rs : Bool) (n : Nibble) : Observer :=
  if rs0 = rs then Observer.execByte c { o with mode := .m4h } rs (joinNibbles hi n) t
  else o.lose.latchUnknown c t rs n

/-- A latch of driven lines, the busy check done (R59, R60, R61). -/
def Observer.latchChecked (c : Config) (o : Observer) (t : Nat) (rs : Bool) (n : Nibble) : Observer :=
  match o.mode with
  | .unknown => o.latchUnknown c t rs n
  | .m8 => o.latchM8 c t rs n
  | .m4h => { o with mode := .m4l rs n }
  | .m4l rs0 hi => o.latchLow c t rs0 hi rs n

/-- A latch of driven lines: a timing violation loses everything and is read as in mode UNKNOWN (R58). -/
def Observer.latchDriven (c : Config) (o : Observer) (t : Nat) (rs : Bool) (n : Nibble) : Observer :=
  if o.mode ≠ .unknown ∧ t < o.busyUntil then o.lose.latchUnknown c t rs n else o.latchChecked c t rs n

/-- What Latch(t, rs, n) does to the observer. A sample of ⊥ loses everything in any mode (R58). -/
def Observer.latch (c : Config) (o : Observer) (t : Nat) (rs : Option Bool) (n : Option Nibble) : Observer :=
  match rs, n with
  | some rs, some n => o.latchDriven c t rs n
  | _, _ => o.lose

/-- The observer consumes the Latch events of a trace and nothing else (R55). -/
def Observer.consume (c : Config) (o : Observer) (e : Event) : Observer :=
  match e with
  | .latch t rs n => o.latch c t rs n
  | .reqBegin _ _ => o
  | .reqEnd _ _ => o
  | .cfg _ => o
  | .pin _ _ _ => o
  | .data _ _ => o
  | .fault _ _ => o

/-- The observer after a whole trace. -/
def Observer.consumeAll (c : Config) (o : Observer) (es : List Event) : Observer :=
  es.foldl (fun o e => o.consume c e) o

/-- The display is on: dctl ≠ ⊥ and dctl[2] = 1 (R65). -/
def Observer.displayOn (o : Observer) : Bool :=
  match o.dctl with
  | none => false
  | some d => d.getLsbD 2

/-- base(r): the DDRAM address of a row's first column (R65). -/
def rowBase (row : Nat) : Nat := if row = 1 then 0x00 else 0x40

/-- The visible character at row and column, none for ⊥ (R65). -/
def Observer.view (c : Config) (o : Observer) (row col : Nat) : Option Byte :=
  if 1 ≤ row ∧ row ≤ 2 ∧ 1 ≤ col ∧ col ≤ c.displayCols ∧
      o.mode = .m4h ∧ o.twoLine = true ∧ o.shift = .zero ∧ o.displayOn = true then
    Cells.read o.ddram (rowBase row + col - 1)
  else none

/-- The address counter holds a DDRAM address. -/
def AddrCounter.isDdram (ac : AddrCounter) : Bool :=
  match ac with
  | .ddram _ => true
  | .cg => false
  | .unknown => false

/-- The observer is ready (R66). -/
abbrev Observer.ready (c : Config) (o : Observer) : Prop :=
  o.mode = .m4h ∧ o.func = some c.cmdFuncset ∧ o.dctl = some c.initDispctrl ∧ o.entry = some c.initEntry ∧
    o.ac.isDdram = true ∧ o.shift = .zero

end Sys2Proof.Machine
end

