-- ==== Sys2Proof/WellFormed.lean ====
section
/-! DEFINITION. What the spec asks of an instruction beyond its operands' widths, of a handle, and of the parameters
for the command-byte rows to be told apart. -/

namespace Sys2Proof

/-- Every operand value is legal (R70, R76) but for FAULT's reason code: 1 is the only one there is (R72, R87). -/
def Instr.wf : Instr → Bool
  | .lcdInit => true
  | .lcdCommand _ => true
  | .lcdPrintChar _ => true
  | .lcdPrintCharAt _ _ _ => true
  | .lcdPrintString _ => true
  | .lcdPrintStringAt _ _ _ => true
  | .strobeEnable => true
  | .sendNibble _ => true
  | .setCursor _ _ => true
  | .cfgOut => true
  | .setRs _ => true
  | .setE _ => true
  | .writeD _ => true
  | .delay _ => true
  | .fault arg => arg == 1
  | .cmdClear => true
  | .cmdHome => true
  | .cmdFuncset => true
  | .initDispctrl => true
  | .initEntry => true
  | .setDdramAddr _ => true

/-- The six pins of a handle, in the order RS, E, D4, D5, D6, D7 (R19). -/
def Handle.pins (h : Handle) : List (PortRef × Fin 8) :=
  [(h.rsPort, h.rsBit), (h.enPort, h.enBit), (h.dPort, h.d4Bit), (h.dPort, h.d5Bit), (h.dPort, h.d6Bit), (h.dPort, h.d7Bit)]

/-- A handle is well-formed iff its four data offsets are pairwise distinct and its six pins are (R19). -/
abbrev Handle.wf (h : Handle) : Prop :=
  [h.d4Bit, h.d5Bit, h.d6Bit, h.d7Bit].Nodup ∧ h.pins.Nodup

/-- The five command bytes of R8 are pairwise distinct and none is a set-DDRAM-address byte, so that R74's rows are
disjoint. It holds of the defaults. -/
abbrev Config.cmdBytesDistinct (c : Config) : Prop :=
  [c.cmdClear, c.cmdHome, c.cmdFuncset, c.initDispctrl, c.initEntry].Nodup ∧
    ∀ b ∈ [c.cmdClear, c.cmdHome, c.cmdFuncset, c.initDispctrl, c.initEntry], b.msb = false

end Sys2Proof
end

