-- ==== Sys2Proof/Machine/Ops.lean ====
section
/-! DEFINITION. The named operations over the state: pins and their views, time, the trace, latch events, the pending
list, accepting and completing a request, the fault and refusal marks, the host's arrival, and launch. -/

namespace Sys2Proof.Machine

/-- out[RS] (R21). -/
def State.outRs (s : State) : Bool := Regs.bit s.ports s.cfg.handle.rsPort s.cfg.handle.rsBit
/-- out[E] (R21). -/
def State.outE (s : State) : Bool := Regs.bit s.ports s.cfg.handle.enPort s.cfg.handle.enBit
/-- out[D] (R21). -/
def State.outD (s : State) : Nibble := busNibble s.cfg.handle (Regs.read s.ports s.cfg.handle.dPort)
/-- dir[RS] = 1 (R22). -/
def State.dirRs (s : State) : Bool := Regs.bit s.ddrs s.cfg.handle.rsPort s.cfg.handle.rsBit
/-- dir[E] = 1 (R22). -/
def State.dirE (s : State) : Bool := Regs.bit s.ddrs s.cfg.handle.enPort s.cfg.handle.enBit
/-- dir[D][0..3] (R22). -/
def State.dirD (s : State) : Nibble := busNibble s.cfg.handle (Regs.read s.ddrs s.cfg.handle.dPort)

/-- set_bit(p, k) or clear_bit(p, k): PORT(p)[k] <- v (R39). -/
def State.writePin (s : State) (p : PortRef) (k : Fin 8) (v : Bool) : State :=
  { s with ports := Regs.setLevel s.ports p k v }

/-- mask_write(p, m, v): PORT(p) <- (PORT(p) & ~m) | (v & m) (R39). -/
def State.maskWrite (s : State) (p : PortRef) (m v : Byte) : State := { s with ports := Regs.maskWrite s.ports p m v }

/-- configure_as_output(p, k): DDR(p)[k] <- 1 (R39). -/
def State.configureAsOutput (s : State) (p : PortRef) (k : Fin 8) : State :=
  { s with ddrs := Regs.setLevel s.ddrs p k true }

/-- Append an event to the trace (R13, R29). -/
def State.emit (s : State) (e : Event) : State := { s with trace := s.trace ++ [e] }

/-- t <- t + δ with the next draw (R26, R81). -/
def State.drawTime (s : State) : State := { s with t := s.t + s.cfg.delta s.draws, draws := s.draws + 1 }

/-- Delay(n): t <- t + n (R13, R26). -/
def State.wait (s : State) (n : Nat) : State := { s with t := s.t + n }

/-- What a falling edge of E samples on RS: ⊥ if the line is not driven (R54). -/
def State.sampleRs (s : State) : Option Bool := if s.dirRs then some s.outRs else none

/-- What a falling edge of E samples on D7..D4: ⊥ unless all four are driven (R54). -/
def State.sampleD (s : State) : Option Nibble := if s.dirD = 0xF then some s.outD else none

/-- A latch event at the current time: it joins the trace, and the controller takes it (R46, R54, R55). -/
def State.latch (s : State) : State :=
  { s with
    trace := s.trace ++ [.latch s.t s.sampleRs s.sampleD]
    obs := s.obs.latch s.cfg s.t s.sampleRs s.sampleD }

/-- Put items at the front of the pending list: a composite is replaced by its expansion (R14, log 9). -/
def State.push (s : State) (l : List Item) : State := { s with uq := l ++ s.uq }

/-- The completion check of R34: with nothing pending and no fault, End(t, cur) and cur <- none. With no current
request there is nothing to complete (log 14). -/
def State.finish (s : State) : State :=
  if s.uq = [] ∧ s.fault = none then
    match s.cur with
    | some r => { s with trace := s.trace ++ [.reqEnd s.t r], cur := none }
    | none => s
  else s

/-- A request accepted, before the completion check: Begin(t, r), cur <- r, upc <- 0, uq <- its expansion (R34). -/
def State.begin (s : State) (r : Instr) (l : List Item) : State :=
  { s with trace := s.trace ++ [.reqBegin s.t r], cur := some r, upc := 0, uq := l }

/-- accept(r) (R34). -/
def State.accept (s : State) (r : Instr) (l : List Item) : State := (s.begin r l).finish

/-- raise Fault(reason): the sticky mark, the event, and nothing pending. There is no trap entry: nothing is saved
and control goes nowhere (R87, R128). -/
def State.raiseFault (s : State) (r : BitVec 24) : State :=
  { s with fault := some r, trace := s.trace ++ [.fault s.t r], uq := [] }

/-- refuse(reason): the sticky mark, and no event (R13, R122). -/
def State.refuse (s : State) (m : RefuseMark) : State := { s with refused := some m }

/-- By how much an entry of the pending list moves upc: R28 counts micro-ops, so a MACRO or a command byte does not
move it (log 9). -/
def upcStep (it : Item) : Nat :=
  match it with
  | .uop _ => 1
  | .macroOp _ _ _ _ => 0
  | .cmd _ => 0

/-- uq <- tail(uq); upc <- upc + 1 (R34). -/
def State.popItem (s : State) (it : Item) (rest : List Item) : State :=
  { s with uq := rest, upc := s.upc + upcStep it }

/-- The host reaches its next request: t <- t + w, and its memory is as it left it (R34, R48; log 8). -/
def State.hostArrive (s : State) (h : HostReq) (hs : List HostReq) : State :=
  { s with t := s.t + h.think, mem := Cells.writeAll s.mem h.stores, hostq := hs }

/-- The list operand of a request: the whole string object, read at acceptance (R41, D22). A request without a string
operand reads nothing. Whatever the bytes are, the operand is accepted (R70). -/
def State.listOperand (s : State) (h : HostReq) : List Byte :=
  if usesString h.word then Cells.readObject s.mem h.addr h.len else []

/-- Six line bits put into a register space at the handle's pins. -/
def placeLines (m : List Host.Cell) (h : Handle) (l : Lines) : List Host.Cell :=
  Regs.maskWrite (Regs.setLevel (Regs.setLevel m h.rsPort h.rsBit l.rs) h.enPort h.enBit l.e) h.dPort (dMask h) (dValue h l.d)

/-- Launch with chosen parameters: the reset state of R36 with the lines at RESET_OUT and RESET_DIR; an ill-formed
handle is refused before the first step (R19, R124, R137). -/
def State.launch (c : Config) : State :=
  { State.reset with
    cfg := c
    ports := placeLines [] c.handle c.resetOut
    ddrs := placeLines [] c.handle c.resetDir
    refused := if c.handle.wf then none else some .badHandle }

end Sys2Proof.Machine
end

