-- ==== Sys2Proof/Machine/Commands.lean ====
section
/-! DEFINITION. The command bytes of R74: the block sends each through the normal command path, seq_cmd (R93), with the
long wait for clear and home (R92). What the controller then does with the byte is R62, in Machine/Observer.lean, when
its second nibble is latched (log 10). -/

namespace Sys2Proof.Machine

/-- CMD_CLEAR (R92, R114). -/
def execCmdClear (s : State) : Host.Outcome State Fault Refusal := .next (s.push (seqCmd s.cfg s.cfg.cmdClear))

/-- CMD_HOME (R92). -/
def execCmdHome (s : State) : Host.Outcome State Fault Refusal := .next (s.push (seqCmd s.cfg s.cfg.cmdHome))

/-- CMD_FUNCSET (R113). -/
def execCmdFuncset (s : State) : Host.Outcome State Fault Refusal := .next (s.push (seqCmd s.cfg s.cfg.cmdFuncset))

/-- INIT_DISPCTRL (R115). -/
def execInitDispctrl (s : State) : Host.Outcome State Fault Refusal := .next (s.push (seqCmd s.cfg s.cfg.initDispctrl))

/-- INIT_ENTRY (R116). -/
def execInitEntry (s : State) : Host.Outcome State Fault Refusal := .next (s.push (seqCmd s.cfg s.cfg.initEntry))

/-- SET_DDRAM_ADDR addr (R101, R102). -/
def execSetDdramAddr (addr : BitVec 7) (s : State) : Host.Outcome State Fault Refusal :=
  .next (s.push (seqCmd s.cfg (ddramByte addr)))

end Sys2Proof.Machine
end

