-- ==== Sys2Proof/Machine/Composites.lean ====
section
/-! DEFINITION. The internal composites of R71: at the head of the pending list each is replaced by its expansion, in
no time and with no event (R14, log 9). -/

namespace Sys2Proof.Machine

/-- STROBE_ENABLE (R88). -/
def execStrobeEnable (s : State) : Host.Outcome State Fault Refusal := .next (s.push (seqStrobe s.cfg))

/-- SEND_NIBBLE n (R89). -/
def execSendNibble (n : Nibble) (s : State) : Host.Outcome State Fault Refusal := .next (s.push (seqNibble s.cfg n))

/-- SET_CURSOR row, col (R102). -/
def execSetCursor (row col : Byte) (s : State) : Host.Outcome State Fault Refusal :=
  .next (s.push (seqSetCursor s.cfg row col))

end Sys2Proof.Machine
end

