-- ==== Sys2Proof/Machine/Requests.lean ====
section
/-! DEFINITION. The six requests: each is accepted, and the pending list becomes its expansion (R34, R97). -/

namespace Sys2Proof.Machine

/-- LCD_INIT: init_count goes up on acceptance (R31, R34, R108). -/
def execLcdInit (s : State) : Host.Outcome State Fault Refusal :=
  .next (State.accept { s with initCount := s.initCount + 1 } .lcdInit (seqInit s.cfg))

/-- LCD_COMMAND b (R93). -/
def execLcdCommand (b : Byte) (s : State) : Host.Outcome State Fault Refusal :=
  .next (s.accept (.lcdCommand b) (seqCmd s.cfg b))

/-- LCD_PRINT_CHAR b (R94). -/
def execLcdPrintChar (b : Byte) (s : State) : Host.Outcome State Fault Refusal :=
  .next (s.accept (.lcdPrintChar b) (seqChar s.cfg b))

/-- LCD_PRINT_CHAR_AT b, row, col (R104). -/
def execLcdPrintCharAt (b row col : Byte) (s : State) : Host.Outcome State Fault Refusal :=
  .next (s.accept (.lcdPrintCharAt b row col) (seqAt s.cfg row col (seqChar s.cfg b)))

/-- LCD_PRINT_STRING s (R96); the unterminated case ends in FAULT FLT_UNTERMINATED (R123). -/
def execLcdPrintString (str : List Byte) (s : State) : Host.Outcome State Fault Refusal :=
  .next (s.accept (.lcdPrintString str) (seqString s.cfg str))

/-- LCD_PRINT_STRING_AT s, row, col (R105). -/
def execLcdPrintStringAt (str : List Byte) (row col : Byte) (s : State) : Host.Outcome State Fault Refusal :=
  .next (s.accept (.lcdPrintStringAt str row col) (seqAt s.cfg row col (seqString s.cfg str)))

end Sys2Proof.Machine
end

