-- ==== Sys2Proof/Machine/Uops.lean ====
section
/-! DEFINITION. The micro-operations (R82 to R87). Each but DELAY and FAULT emits its event at the current time and
then takes a draw (R81). -/

namespace Sys2Proof.Machine

/-- CFG_OUT: the six lines made outputs, one atomic micro-op (R82). -/
def execCfgOut (s : State) : Host.Outcome State Fault Refusal :=
  let h := s.cfg.handle
  let s1 := s.configureAsOutput h.rsPort h.rsBit
  let s2 := s1.configureAsOutput h.enPort h.enBit
  let s3 := s2.configureAsOutput h.dPort h.d4Bit
  let s4 := s3.configureAsOutput h.dPort h.d5Bit
  let s5 := s4.configureAsOutput h.dPort h.d6Bit
  let s6 := s5.configureAsOutput h.dPort h.d7Bit
  .next (s6.emit (.cfg s6.t)).drawTime

/-- SET_RS v (R83). -/
def execSetRs (v : Bool) (s : State) : Host.Outcome State Fault Refusal :=
  .next ((s.writePin s.cfg.handle.rsPort s.cfg.handle.rsBit v).emit (.pin s.t .rs v)).drawTime

/-- SET_E v: a falling edge of a driven E is a latch event, sampled after the write (R54, R84). -/
def execSetE (v : Bool) (s : State) : Host.Outcome State Fault Refusal :=
  let s1 := (s.writePin s.cfg.handle.enPort s.cfg.handle.enBit v).emit (.pin s.t .e v)
  let s2 := if s.outE = true ∧ v = false ∧ s.dirE = true then s1.latch else s1
  .next s2.drawTime

/-- WRITE_D n: one mask_write on the data port (R40, R85). -/
def execWriteD (n : Nibble) (s : State) : Host.Outcome State Fault Refusal :=
  .next ((s.maskWrite s.cfg.handle.dPort (dMask s.cfg.handle) (dValue s.cfg.handle n)).emit (.data s.t n)).drawTime

/-- DELAY n: exactly n µs, no event (R86). -/
def execDelay (arg : BitVec 24) (s : State) : Host.Outcome State Fault Refusal := .next (s.wait arg.toNat)

/-- FAULT r (R87). A reason code other than 1 is set as it stands (log 11). -/
def execFault (arg : BitVec 24) (s : State) : Host.Outcome State Fault Refusal := .next (s.raiseFault arg)

end Sys2Proof.Machine
end

