-- ==== Sys2Proof/Machine/Dispatch.lean ====
section
/-! DEFINITION. One arm for each instruction. -/

namespace Sys2Proof.Machine

def exec (i : Instr) (s : State) : Host.Outcome State Fault Refusal :=
  match i with
  -- REQ (R69)
  | .lcdInit => Sys2Proof.Machine.execLcdInit s
  | .lcdCommand b => Sys2Proof.Machine.execLcdCommand b s
  | .lcdPrintChar b => Sys2Proof.Machine.execLcdPrintChar b s
  | .lcdPrintCharAt b row col => Sys2Proof.Machine.execLcdPrintCharAt b row col s
  | .lcdPrintString str => Sys2Proof.Machine.execLcdPrintString str s
  | .lcdPrintStringAt str row col => Sys2Proof.Machine.execLcdPrintStringAt str row col s
  -- MACRO (R71)
  | .strobeEnable => Sys2Proof.Machine.execStrobeEnable s
  | .sendNibble n => Sys2Proof.Machine.execSendNibble n s
  | .setCursor row col => Sys2Proof.Machine.execSetCursor row col s
  -- UOP (R72)
  | .cfgOut => Sys2Proof.Machine.execCfgOut s
  | .setRs v => Sys2Proof.Machine.execSetRs v s
  | .setE v => Sys2Proof.Machine.execSetE v s
  | .writeD n => Sys2Proof.Machine.execWriteD n s
  | .delay arg => Sys2Proof.Machine.execDelay arg s
  | .fault arg => Sys2Proof.Machine.execFault arg s
  -- LCD_CMD (R74)
  | .cmdClear => Sys2Proof.Machine.execCmdClear s
  | .cmdHome => Sys2Proof.Machine.execCmdHome s
  | .cmdFuncset => Sys2Proof.Machine.execCmdFuncset s
  | .initDispctrl => Sys2Proof.Machine.execInitDispctrl s
  | .initEntry => Sys2Proof.Machine.execInitEntry s
  | .setDdramAddr addr => Sys2Proof.Machine.execSetDdramAddr addr s

end Sys2Proof.Machine
end

