-- ==== Sys2Proof/Machine/Step.lean ====
section
/-! DEFINITION. The step relation of R34 as one function: the engine move while something is pending, else the host
move, else the block waits idle. -/

namespace Sys2Proof.Machine

/-- The engine move: decode the head of the pending list, take it off, execute it, check for completion (R34). -/
def engineMove (s : State) (it : Item) (rest : List Item) : Host.Outcome State Fault Refusal :=
  match decodeItem s.cfg it with
  | .error e => .refused (.undecodable e)
  | .ok i =>
    match exec i (s.popItem it rest) with
    | .next s' => .next s'.finish
    | .fault r => .fault r
    | .refused r => .refused r

/-- The host move: the host arrives with its next request; a reserved op sets the mark REFUSE_BAD_REQUEST, any other is
accepted (R34, R70, R125). -/
def hostMove (s : State) (h : HostReq) (hs : List HostReq) : Host.Outcome State Fault Refusal :=
  match decodeReq { word := h.word, s := (s.hostArrive h hs).listOperand h } with
  | .error _ => .next ((s.hostArrive h hs).refuse .badRequest)
  | .ok i => exec i (s.hostArrive h hs)

/-- One step (R34). A marked state has no move (R30). With no request to come the block waits idle (R138, log 8). -/
def step (s : State) : Host.Outcome State Fault Refusal :=
  match s.fault, s.refused with
  | some r, _ => .fault (.stopped r)
  | none, some m => .refused (.stopped m)
  | none, none =>
    match s.uq, s.cur, s.hostq with
    | it :: rest, _, _ => engineMove s it rest
    | [], some _, _ => .fault .noMove
    | [], none, [] => .next s
    | [], none, h :: hs => hostMove s h hs

/-- The state with a word of the opcode table where step fetches its next instruction: a request at the head of the
host's queue, with the engine idle and no string object; any other at the head of the pending list. The marks are
cleared, since a marked state fetches nothing (log 15). -/
def State.withFetchWord (s : State) (nbits w : Nat) : State :=
  match tableCode nbits w with
  | .req r =>
    { s with fault := none, refused := none, uq := [], cur := none
             hostq := { think := 0, stores := [], word := r.word, addr := 0, len := 0 } :: s.hostq }
  | .item it => { s with fault := none, refused := none, uq := it :: s.uq }

end Sys2Proof.Machine
end

