-- ==== Sys2Proof/Safety.lean ====
section
/-! DEFINITION. What counts as a safe state and as a successful end (R30, R35), the invariants of the model, and the
words the statements use. -/

namespace Sys2Proof

open Sys2Proof.Machine

/-- Every wait fits one DELAY, so that the counts of R107, R109 and R147 hold (R72). -/
abbrev Config.fits (c : Config) : Prop :=
  c.tRsSetup ≤ delayMax ∧ c.tBusSettle ≤ delayMax ∧ c.tEnHigh ≤ delayMax ∧ c.tExecLong ≤ delayMax ∧
    c.tExecShort ≤ delayMax ∧ c.tChar ≤ delayMax ∧ c.tPower ≤ delayMax ∧ c.tReset1 ≤ delayMax ∧
    c.tReset2 ≤ delayMax ∧ c.tReset3 ≤ delayMax ∧ c.tFinal ≤ delayMax

/-- The default parameters but for the handle, the options and DELTA_MAX (R7, R8, R11). -/
abbrev Config.atDefaults (c : Config) : Prop :=
  c = { Config.default with
        handle := c.handle, deltaMax := c.deltaMax, stringMode := c.stringMode
        invalidRowSendsData := c.invalidRowSendsData, resetOut := c.resetOut, resetDir := c.resetDir
        displayRows := c.displayRows, displayCols := c.displayCols }

/-- One of the six pins of a handle. -/
abbrev Handle.isPin (h : Handle) (p : PortRef) (k : Fin 8) : Prop :=
  (p = h.rsPort ∧ k = h.rsBit) ∨ (p = h.enPort ∧ k = h.enBit) ∨
    (p = h.dPort ∧ (k = h.d4Bit ∨ k = h.d5Bit ∨ k = h.d6Bit ∨ k = h.d7Bit))

end Sys2Proof

namespace Sys2Proof.Machine

/-- No mark is set (R30). -/
abbrev State.safe (s : State) : Prop := s.fault = none ∧ s.refused = none

/-- A run ends successfully here: no further request, the engine idle, no mark (R35). -/
abbrev State.ended (s : State) : Prop := s.hostq = [] ∧ s.idle ∧ s.safe

/-- All six lines are outputs. -/
abbrev State.linesDriven (s : State) : Prop := s.dirRs = true ∧ s.dirE = true ∧ s.dirD = 0xF

/-- One of the six requests of R69. -/
def isRequest (i : Instr) : Bool :=
  match i with
  | .lcdInit => true
  | .lcdCommand _ => true
  | .lcdPrintChar _ => true
  | .lcdPrintCharAt _ _ _ => true
  | .lcdPrintString _ => true
  | .lcdPrintStringAt _ _ _ => true
  | .strobeEnable => false
  | .sendNibble _ => false
  | .setCursor _ _ => false
  | .cfgOut => false
  | .setRs _ => false
  | .setE _ => false
  | .writeD _ => false
  | .delay _ => false
  | .fault _ => false
  | .cmdClear => false
  | .cmdHome => false
  | .cmdFuncset => false
  | .initDispctrl => false
  | .initEntry => false
  | .setDdramAddr _ => false

/-- The request sends a string object that holds no terminator (R96, R103, R105). -/
def endsInFault (c : Config) (i : Instr) : Bool :=
  match i with
  | .lcdPrintString s => !terminated c.stringMode s
  | .lcdPrintStringAt s row _ =>
    !terminated c.stringMode s && (row == 1 || row == 2 || c.invalidRowSendsData)
  | .lcdInit => false
  | .lcdCommand _ => false
  | .lcdPrintChar _ => false
  | .lcdPrintCharAt _ _ _ => false
  | .strobeEnable => false
  | .sendNibble _ => false
  | .setCursor _ _ => false
  | .cfgOut => false
  | .setRs _ => false
  | .setE _ => false
  | .writeD _ => false
  | .delay _ => false
  | .fault _ => false
  | .cmdClear => false
  | .cmdHome => false
  | .cmdFuncset => false
  | .initDispctrl => false
  | .initEntry => false
  | .setDdramAddr _ => false

/-- A pending list reads, word for word, as a list of instructions. -/
abbrev readsAs (c : Config) (l : List Item) (is : List Instr) : Prop := l.map (decodeItem c) = is.map Except.ok

/-- DELAY n. -/
def us (n : Nat) : Instr := .delay (BitVec.ofNat 24 n)

/-- SEND_NIBBLE n as micro-ops (R88, R89), for waits that fit. -/
def nibbleOps (c : Config) (n : Nibble) : List Instr :=
  [.writeD n, us c.tBusSettle, .setE true, us c.tEnHigh, .setE false]

/-- A transaction as micro-ops (R91, R93, R94), for waits that fit. -/
def transactionOps (c : Config) (rs : Bool) (b : Byte) (trailing : Nat) : List Instr :=
  [.setRs rs, us c.tRsSetup] ++ nibbleOps c (b.extractLsb' 4 4) ++ nibbleOps c (b.extractLsb' 0 4) ++ [us trailing]

/-- send_command as micro-ops (R92, R93). -/
def commandOps (c : Config) (b : Byte) : List Instr :=
  transactionOps c false b (if b = c.cmdClear ∨ b = c.cmdHome then c.tExecLong else c.tExecShort)

/-- send_char as micro-ops (R94). -/
def charOps (c : Config) (b : Byte) : List Instr := transactionOps c true b c.tChar

/-- A strobe as micro-ops (R88), with `w n` for the DELAYs of a wait of n. -/
def strobeWith (w : Nat → List Instr) (c : Config) : List Instr :=
  w c.tBusSettle ++ [.setE true] ++ w c.tEnHigh ++ [.setE false]

/-- SEND_NIBBLE n as micro-ops (R89), with `w n` for the DELAYs of a wait of n. -/
def nibbleWith (w : Nat → List Instr) (c : Config) (n : Nibble) : List Instr := [.writeD n] ++ strobeWith w c

/-- A transaction as micro-ops (R91, R93, R94), with `w n` for the DELAYs of a wait of n. -/
def transactionWith (w : Nat → List Instr) (c : Config) (rs : Bool) (b : Byte) (trailing : Nat) : List Instr :=
  [.setRs rs] ++ w c.tRsSetup ++ nibbleWith w c (b.extractLsb' 4 4) ++ nibbleWith w c (b.extractLsb' 0 4) ++ w trailing

/-- send_command as micro-ops (R92, R93), with `w n` for the DELAYs of a wait of n. -/
def commandWith (w : Nat → List Instr) (c : Config) (b : Byte) : List Instr :=
  transactionWith w c false b (if b = c.cmdClear ∨ b = c.cmdHome then c.tExecLong else c.tExecShort)

/-- What a DELAY of the list waits, 0 for any other entry. -/
def itemWait (c : Config) (it : Item) : Nat :=
  match decodeItem c it with
  | .ok (.delay n) => n.toNat
  | _ => 0

/-- 1 for a micro-op that takes a draw (R81), 0 for DELAY and FAULT. -/
def itemDraws (c : Config) (it : Item) : Nat :=
  match decodeItem c it with
  | .ok .cfgOut => 1
  | .ok (.setRs _) => 1
  | .ok (.setE _) => 1
  | .ok (.writeD _) => 1
  | _ => 0

/-- The waits of a list. -/
def totalWait (c : Config) (l : List Item) : Nat := (l.map (itemWait c)).sum

/-- The draws of a list. -/
def totalDraws (c : Config) (l : List Item) : Nat := (l.map (itemDraws c)).sum

/-- Time after one draw: a δ with 0 ≤ δ ≤ DELTA_MAX (R26, R81). -/
abbrev drawAfter (s t : State) : Prop := ∃ d, t.t = s.t + d ∧ ∀ m, s.cfg.deltaMax = some m → d ≤ m

/-- The frame of a micro-op: what none but the sequencer, the host or a mark changes. -/
abbrev sequencerSame (s t : State) : Prop :=
  t.cfg = s.cfg ∧ t.cur = s.cur ∧ t.uq = s.uq ∧ t.upc = s.upc ∧ t.fault = s.fault ∧ t.refused = s.refused ∧
    t.initCount = s.initCount ∧ t.mem = s.mem ∧ t.hostq = s.hostq

/-- The time of an event. -/
def Event.time (e : Event) : Nat :=
  match e with
  | .reqBegin t _ => t
  | .reqEnd t _ => t
  | .cfg t => t
  | .pin t _ _ => t
  | .data t _ => t
  | .latch t _ _ => t
  | .fault t _ => t

/-- The latch events of a trace: when, and what was sampled. -/
def latches (tr : List Event) : List (Nat × Option Bool × Option Nibble) :=
  tr.filterMap (fun e =>
    match e with
    | .latch t rs n => some (t, rs, n)
    | _ => none)

/-- E has been written. -/
def eWritten (tr : List Event) : Bool :=
  tr.any (fun e =>
    match e with
    | .pin _ .e _ => true
    | _ => false)

/-- The register spaces, the caller's memory and the DDRAM are in canonical form, the DDRAM within 0x00..0x7F. -/
def State.memoryCanonical (s : State) : Prop :=
  Regs.wf s.ports ∧ Regs.wf s.ddrs ∧ Cells.wf s.mem ∧ Cells.wf s.obs.ddram ∧ ∀ x ∈ s.obs.ddram, x.1 < 128

/-- The observer is what the latches of the trace make of the power-on observer (R55, R57). -/
def State.observerFollowsTrace (s : State) : Prop := s.obs = Observer.powerOn.consumeAll s.cfg s.trace

/-- The events stand in order of time, none later than now (R26, R29). -/
def State.traceOrdered (s : State) : Prop :=
  (s.trace.map Event.time).Pairwise (fun a b => a ≤ b) ∧ ∀ e ∈ s.trace, e.time ≤ s.t

/-- The pending list is the current request's expansion from upc on (R27, R28). -/
def State.sequencerOk (s : State) : Prop :=
  (s.fault = none → s.cur = none → s.uq = []) ∧
    ∀ r, s.cur = some r → isRequest r = true ∧
      (s.fault = none → s.upc < (expand s.cfg r).length ∧ s.uq = (expand s.cfg r).drop s.upc)

/-- The marks take the values of R30, and nothing is pending under one; REFUSE_BAD_HANDLE stands for an ill-formed
handle and for nothing else (R19). -/
def State.marksOk (s : State) : Prop :=
  (s.fault = none ∨ s.fault = some 1 ∧ s.uq = []) ∧
    (s.refused ≠ none → s.uq = [] ∧ s.cur = none ∧ s.fault = none) ∧
    (s.refused = some .badHandle ↔ ¬ s.cfg.handle.wf)

/-- The invariant of the model. -/
structure State.Inv (s : State) : Prop where
  memory : s.memoryCanonical
  observer : s.observerFollowsTrace
  trace : s.traceOrdered
  sequencer : s.sequencerOk
  marks : s.marksOk

/-- From level `lvl` of E, the list raises E only when it is low, and leaves it low at its end or at a FAULT. -/
def strobed (c : Config) (lvl : Bool) (l : List Item) : Prop :=
  match l with
  | [] => lvl = false
  | it :: l =>
    match decodeItem c it with
    | .ok (.setE v) => (v = false ∨ lvl = false) ∧ strobed c v l
    | .ok (.fault _) => lvl = false
    | _ => strobed c lvl l

/-- Once E has been written, it is high only inside a strobe: what is pending lowers it first, and with nothing pending
it is low (R21, R90). -/
def State.strobeInv (s : State) : Prop :=
  s.refused = none → strobed s.cfg (eWritten s.trace && s.outE) s.uq

end Sys2Proof.Machine
end

