-- ==== Sys2Proof/Certificates/Slice0/Obligations.lean ====
section
/-! DEFINITION. The statements for the provers. Each docstring names the rules it formalises; OBLIGATIONS.json lists them. -/

open Sys2Proof Sys2Proof.Machine

/-! ## Reset, launch and the marks -/

/-- R36, R57: a launch with a well-formed handle holds the reset table, and State.reset is the launch at the defaults. -/
def Obligations.LaunchHoldsTheResetTable : Prop :=
  (∀ c : Config, c.handle.wf →
    (State.launch c).outRs = c.resetOut.rs ∧ (State.launch c).outE = c.resetOut.e ∧
    (State.launch c).outD = c.resetOut.d ∧ (State.launch c).dirRs = c.resetDir.rs ∧
    (State.launch c).dirE = c.resetDir.e ∧ (State.launch c).dirD = c.resetDir.d ∧
    (State.launch c).t = 0 ∧ (State.launch c).cur = none ∧ (State.launch c).uq = [] ∧ (State.launch c).upc = 0 ∧
    (State.launch c).trace = [] ∧ (State.launch c).fault = none ∧ (State.launch c).refused = none ∧
    (State.launch c).initCount = 0 ∧
    (State.launch c).obs.mode = .unknown ∧ (State.launch c).obs.k = 0 ∧ (State.launch c).obs.tk = none ∧
    (State.launch c).obs.busyUntil = 0 ∧ (State.launch c).obs.func = none ∧ (State.launch c).obs.dctl = none ∧
    (State.launch c).obs.entry = none ∧ (State.launch c).obs.ac = .unknown ∧ (State.launch c).obs.shift = .unknown ∧
    ∀ a, Cells.read (State.launch c).obs.ddram a = none) ∧
  State.reset = State.launch Config.default

/-- R19: a handle is well-formed iff the four offsets are pairwise distinct and the six pins are; a launch with any other
is refused before its first step. -/
def Obligations.IllFormedHandleIsRefusedAtLaunch : Prop :=
  ∀ (c : Config) (q : List HostReq),
    (c.handle.wf ↔
      (c.handle.d4Bit ≠ c.handle.d5Bit ∧ c.handle.d4Bit ≠ c.handle.d6Bit ∧ c.handle.d4Bit ≠ c.handle.d7Bit ∧
        c.handle.d5Bit ≠ c.handle.d6Bit ∧ c.handle.d5Bit ≠ c.handle.d7Bit ∧ c.handle.d6Bit ≠ c.handle.d7Bit) ∧
      ¬ (c.handle.rsPort = c.handle.enPort ∧ c.handle.rsBit = c.handle.enBit) ∧
      ¬ (c.handle.rsPort = c.handle.dPort ∧ c.handle.rsBit ∈ [c.handle.d4Bit, c.handle.d5Bit, c.handle.d6Bit, c.handle.d7Bit]) ∧
      ¬ (c.handle.enPort = c.handle.dPort ∧ c.handle.enBit ∈ [c.handle.d4Bit, c.handle.d5Bit, c.handle.d6Bit, c.handle.d7Bit])) ∧
    (¬ c.handle.wf → step { State.launch c with hostq := q } = .refused (.stopped .badHandle)) ∧
    (c.handle.wf → (State.launch c).refused = none)

/-- R30, R34, D26 (that a step in a marked state answers `stopped` is log 12): a marked state has no next state, and so
no step clears a mark. -/
def Obligations.MarkedStateHasNoMove : Prop :=
  ∀ s : State,
    (∀ r, s.fault = some r → step s = .fault (.stopped r)) ∧
    (∀ m, s.fault = none → s.refused = some m → step s = .refused (.stopped m)) ∧
    (∀ t, step s = .next t → s.fault = none ∧ s.refused = none)

/-! ## The step relation -/

/-- R34, engine move: the head of the pending list is decoded and executed on the state with the list's tail and the
index moved, and then the completion check is made. (A composite or a command byte does not move the index: log 9. A list
emptied with no current request emits no End: log 14.) -/
def Obligations.StepRunsTheDecodedHead : Prop :=
  ∀ (s : State) (it : Item) (rest : List Item) (i : Instr),
    s.safe → s.uq = it :: rest → decodeItem s.cfg it = .ok i → i.wf = true →
    ∃ u, exec i { s with uq := rest, upc := s.upc + (match it with | .uop _ => 1 | _ => 0) } = .next u ∧
      step s = .next
        (match u.cur with
        | some r =>
          if u.uq = [] ∧ u.fault = none then { u with trace := u.trace ++ [.reqEnd u.t r], cur := none } else u
        | none => u)

/-- R34, host move, R70 and R138 (that a step with no request to come leaves the state as it is, and that the host's stores
reach its memory first, is log 8): an idle engine accepts the next request, decoded with its string object, whatever bytes
that object holds (a byte nothing has written is a free value: log 7); with none it waits. -/
def Obligations.StepAcceptsTheDecodedRequest : Prop :=
  ∀ s : State, s.safe → s.idle →
    (s.hostq = [] → step s = .next s) ∧
    ∀ (q : HostReq) (qs : List HostReq) (i : Instr),
      s.hostq = q :: qs →
      decodeReq { word := q.word
                  s := if reqOp q.word = 0x4 ∨ reqOp q.word = 0x5 then
                    Cells.readObject (Cells.writeAll s.mem q.stores) q.addr q.len else [] } = .ok i →
      step s = exec i { s with t := s.t + q.think, mem := Cells.writeAll s.mem q.stores, hostq := qs }

/-- R125: a reserved op is refused at the host move, and nothing of the request is executed. -/
def Obligations.ReservedRequestIsRefused : Prop :=
  ∀ (s : State) (q : HostReq) (qs : List HostReq), s.safe → s.idle → s.hostq = q :: qs → 6 ≤ (reqOp q.word).toNat →
    ∃ t, step s = .next t ∧ t.refused = some .badRequest ∧ t.t = s.t + q.think ∧ t.uq = [] ∧ t.cur = none ∧
      t.fault = none ∧ t.trace = s.trace ∧ t.ports = s.ports ∧ t.ddrs = s.ddrs ∧ t.obs = s.obs ∧ t.upc = s.upc ∧
      t.initCount = s.initCount ∧ t.draws = s.draws ∧ t.cfg = s.cfg

/-- R27, R28, R29, R55 and the canonical form of memory: every step keeps the invariant, from every state that has it. -/
def Obligations.StepKeepsInv : Prop :=
  ∀ s t : State, s.Inv → step s = .next t → t.Inv

/-- Every launch, and so the reset state, has the invariant. -/
def Obligations.LaunchHasInv : Prop :=
  (∀ (c : Config) (q : List HostReq), State.Inv { State.launch c with hostq := q }) ∧ State.reset.Inv

/-- R21, R90: once E has been written it is high only inside a strobe, and low whenever nothing is pending. The second
clause is what the invariant says of an idle engine. -/
def Obligations.EnableIsLowBetweenStrobes : Prop :=
  (∀ s t : State, s.Inv → s.strobeInv → step s = .next t → t.strobeInv) ∧
  (∀ s : State, s.strobeInv → s.refused = none → s.uq = [] → eWritten s.trace = true → s.outE = false) ∧
  (∀ (c : Config) (q : List HostReq), State.strobeInv { State.launch c with hostq := q })

/-- R26, R29, R32: time never decreases, the trace only grows, and the handle and the parameters never change. -/
def Obligations.TimeAndTraceOnlyGrow : Prop :=
  ∀ s t : State, step s = .next t → s.t ≤ t.t ∧ s.trace <+: t.trace ∧ t.cfg = s.cfg

/-- R22: only CFG_OUT writes a direction bit. -/
def Obligations.OnlyCfgOutWritesDirections : Prop :=
  ∀ s t : State, step s = .next t → t.ddrs ≠ s.ddrs →
    ∃ it rest, s.uq = it :: rest ∧ decodeItem s.cfg it = .ok .cfgOut

/-- R23: no step changes a bit of a port or direction register that is not one of the six pins. -/
def Obligations.OtherPortBitsAreNeverTouched : Prop :=
  ∀ (s t : State) (p : PortRef) (k : Fin 8), step s = .next t → ¬ s.cfg.handle.isPin p k →
    Regs.bit t.ports p k = Regs.bit s.ports p k ∧ Regs.bit t.ddrs p k = Regs.bit s.ddrs p k

/-- R54: a latch event occurs exactly when SET_E 0 is executed with out[E] = 1 and dir[E] = 1, and what it samples. -/
def Obligations.LatchExactlyOnFallingDrivenEnable : Prop :=
  ∀ s t : State, s.cfg.handle.wf → step s = .next t →
    latches t.trace = latches s.trace ++
      (if s.outE = true ∧ s.dirE = true ∧
          (match s.uq.head?.map (decodeItem s.cfg) with
          | some (.ok (.setE false)) => true
          | _ => false) = true then
        [(s.t, (if s.dirRs = true then some s.outRs else none), (if s.dirD = 0xF then some s.outD else none))]
      else [])

/-- R2, R33: the block never reads the controller: with any other observer in its place a step does the same. -/
def Obligations.BlockNeverReadsTheController : Prop :=
  ∀ (s : State) (o : Observer),
    match step s, step { s with obs := o } with
    | .next t, .next u => ∃ o', u = { t with obs := o' }
    | .fault a, .fault b => a = b
    | .refused a, .refused b => a = b
    | _, _ => False

/-- R41: a string object is read as its bytes in increasing address order (one that nothing has written is a byte, its
value free: log 7), and no engine move writes the caller's memory. -/
def Obligations.CallerMemoryIsReadInOrderAndNeverWritten : Prop :=
  (∀ (m : List Host.Cell) (a n : Nat),
    (Cells.readObject m a n).length = n ∧
    (∀ i v, i < n → Cells.read m (a + i) = some v → (Cells.readObject m a n)[i]? = some v) ∧
    (∀ i k : Nat, i + k ≤ n → Cells.readObject m (a + i) k = ((Cells.readObject m a n).drop i).take k)) ∧
  (∀ s t : State, s.uq ≠ [] → step s = .next t → t.mem = s.mem)

/-! ## Pins and micro-operations -/

/-- R39: each pin primitive writes one register, and the bits it names. -/
def Obligations.PinPrimitivesWriteOneRegister : Prop :=
  ∀ (s : State) (p q : PortRef) (k j : Fin 8) (m v : Byte),
    Regs.bit (s.configureAsOutput p k).ddrs q j = (if q = p ∧ j = k then true else Regs.bit s.ddrs q j) ∧
    (s.configureAsOutput p k).ports = s.ports ∧
    Regs.bit (s.writePin p k true).ports q j = (if q = p ∧ j = k then true else Regs.bit s.ports q j) ∧
    Regs.bit (s.writePin p k false).ports q j = (if q = p ∧ j = k then false else Regs.bit s.ports q j) ∧
    Regs.read (s.maskWrite p m v).ports q =
      (if q = p then (Regs.read s.ports p &&& ~~~m) ||| (v &&& m) else Regs.read s.ports q) ∧
    (∀ b, (s.writePin p k b).ddrs = s.ddrs) ∧ (s.maskWrite p m v).ddrs = s.ddrs

/-- R82: CFG_OUT, UOP code 0, makes the six lines outputs and changes no level. -/
def Obligations.CfgOutMakesSixOutputs : Prop :=
  (∀ w : BitVec 32, w.toNat % 8 = 0 → decodeUop w = .ok .cfgOut) ∧
  ∀ s : State, ∃ t, exec .cfgOut s = .next t ∧ t.linesDriven ∧ t.ports = s.ports ∧
    (∀ p k, ¬ s.cfg.handle.isPin p k → Regs.bit t.ddrs p k = Regs.bit s.ddrs p k) ∧
    t.trace = s.trace ++ [.cfg s.t] ∧ drawAfter s t ∧ t.obs = s.obs ∧ sequencerSame s t

/-- R83: SET_RS v, UOP code 1 with v in bit 3, drives RS and nothing else. -/
def Obligations.SetRsDrivesRs : Prop :=
  (∀ w : BitVec 32, w.toNat % 8 = 1 → decodeUop w = .ok (.setRs (w.getLsbD 3))) ∧
  ∀ (s : State) (v : Bool), ∃ t, exec (.setRs v) s = .next t ∧ t.outRs = v ∧ t.ddrs = s.ddrs ∧
    (∀ p k, ¬ (p = s.cfg.handle.rsPort ∧ k = s.cfg.handle.rsBit) → Regs.bit t.ports p k = Regs.bit s.ports p k) ∧
    t.trace = s.trace ++ [.pin s.t .rs v] ∧ drawAfter s t ∧ t.obs = s.obs ∧ sequencerSame s t

/-- R84: SET_E v, UOP code 2 with v in bit 3, drives E; a falling edge of a driven E is a latch of the driven lines, and the controller takes it. -/
def Obligations.SetEDrivesEnableAndLatches : Prop :=
  (∀ w : BitVec 32, w.toNat % 8 = 2 → decodeUop w = .ok (.setE (w.getLsbD 3))) ∧
  ∀ (s : State) (v : Bool), s.cfg.handle.wf → ∃ t, exec (.setE v) s = .next t ∧ t.outE = v ∧ t.ddrs = s.ddrs ∧
    (∀ p k, ¬ (p = s.cfg.handle.enPort ∧ k = s.cfg.handle.enBit) → Regs.bit t.ports p k = Regs.bit s.ports p k) ∧
    (if s.outE = true ∧ v = false ∧ s.dirE = true then
      t.trace = s.trace ++ [.pin s.t .e v, .latch s.t (if s.dirRs = true then some s.outRs else none)
        (if s.dirD = 0xF then some s.outD else none)] ∧
      t.obs = s.obs.latch s.cfg s.t (if s.dirRs = true then some s.outRs else none) (if s.dirD = 0xF then some s.outD else none)
    else t.trace = s.trace ++ [.pin s.t .e v] ∧ t.obs = s.obs) ∧
    drawAfter s t ∧ sequencerSame s t

/-- R40, R85: WRITE_D n, UOP code 3 with n in bits 7:4, is one masked write of the data port: the four data bits take the nibble, bit i on line D(4+i),
and no other bit changes, RS and E included. -/
def Obligations.WriteDPutsTheNibble : Prop :=
  (∀ w : BitVec 32, w.toNat % 8 = 3 → decodeUop w = .ok (.writeD (w.extractLsb' 4 4))) ∧
  ∀ (s : State) (n : Nibble), s.cfg.handle.wf → ∃ t, exec (.writeD n) s = .next t ∧
    (∃ m v : Byte,
      m = (1#8 <<< s.cfg.handle.d4Bit.val) ||| (1#8 <<< s.cfg.handle.d5Bit.val) ||| (1#8 <<< s.cfg.handle.d6Bit.val) |||
        (1#8 <<< s.cfg.handle.d7Bit.val) ∧
      v = ((if n.getLsbD 0 then 1#8 else 0#8) <<< s.cfg.handle.d4Bit.val) |||
        ((if n.getLsbD 1 then 1#8 else 0#8) <<< s.cfg.handle.d5Bit.val) |||
        ((if n.getLsbD 2 then 1#8 else 0#8) <<< s.cfg.handle.d6Bit.val) |||
        ((if n.getLsbD 3 then 1#8 else 0#8) <<< s.cfg.handle.d7Bit.val) ∧
      ∀ p, Regs.read t.ports p =
        if p = s.cfg.handle.dPort then (Regs.read s.ports p &&& ~~~m) ||| (v &&& m) else Regs.read s.ports p) ∧
    t.outD = n ∧ t.outRs = s.outRs ∧ t.outE = s.outE ∧ t.ddrs = s.ddrs ∧
    (∀ p k, ¬ (p = s.cfg.handle.dPort ∧ (k = s.cfg.handle.d4Bit ∨ k = s.cfg.handle.d5Bit ∨ k = s.cfg.handle.d6Bit ∨
      k = s.cfg.handle.d7Bit)) → Regs.bit t.ports p k = Regs.bit s.ports p k) ∧
    t.trace = s.trace ++ [.data s.t n] ∧ drawAfter s t ∧ t.obs = s.obs ∧ sequencerSame s t

/-- R86, R87: DELAY n, UOP code 4, adds exactly n and does nothing else. FAULT r, UOP code 5, sets the mark, leaves nothing pending, takes no time
and completes nothing; in a request's expansion it stands only last, with reason 1, for an unterminated string. (That a
reason other than 1 is set as it stands is log 11; that the step of the marked state answers `stopped` is log 12.) -/
def Obligations.DelayWaitsAndFaultStops : Prop :=
  (∀ w : BitVec 32, (w.toNat % 8 = 4 → decodeUop w = .ok (.delay (w.extractLsb' 8 24))) ∧
    (w.toNat % 8 = 5 → decodeUop w = .ok (.fault (w.extractLsb' 8 24)))) ∧
  (∀ (s : State) (n : BitVec 24), exec (.delay n) s = .next { s with t := s.t + n.toNat }) ∧
  (∀ (s : State) (r : BitVec 24),
    exec (.fault r) s = .next { s with fault := some r, trace := s.trace ++ [.fault s.t r], uq := [] }) ∧
  (∀ (s : State) (it : Item) (rest : List Item) (r : BitVec 24), s.safe → s.uq = it :: rest →
    decodeItem s.cfg it = .ok (.fault r) →
    ∃ t, step s = .next t ∧ t.fault = some r ∧ t.uq = [] ∧ t.t = s.t ∧ t.cur = s.cur ∧
      t.trace = s.trace ++ [.fault s.t r] ∧ step t = .fault (.stopped r)) ∧
  (∀ (c : Config) (i : Instr) (l1 l2 : List Item) (it : Item) (r : BitVec 24), isRequest i = true →
    expand c i = l1 ++ it :: l2 → decodeItem c it = .ok (.fault r) → l2 = [] ∧ r = 1 ∧ endsInFault c i = true)

/-- R81: every micro-op other than DELAY and FAULT emits its events at the current time and then takes a draw; DELAY
advances time by its argument and emits nothing; FAULT emits its event and takes no time. -/
def Obligations.MicroOpsTakeABoundedDraw : Prop :=
  ∀ (s t : State) (i : Instr), exec i s = .next t →
    ((i = .cfgOut ∨ (∃ v, i = .setRs v) ∨ (∃ v, i = .setE v) ∨ (∃ n, i = .writeD n)) →
      drawAfter s t ∧ ∃ es, es ≠ [] ∧ t.trace = s.trace ++ es ∧ ∀ e ∈ es, e.time = s.t) ∧
    (∀ n, i = .delay n → t.t = s.t + n.toNat ∧ t.trace = s.trace) ∧
    (∀ r, i = .fault r → t.t = s.t ∧ t.trace = s.trace ++ [.fault s.t r])

/-! ## Composites and command bytes -/

/-- R88, R89, R102 (that the expansion takes the composite's place at the head of the pending list is log 9): each
composite is replaced by its expansion, in no time. -/
def Obligations.CompositesExpandInPlace : Prop :=
  ∀ s : State, s.cfg.fits →
    (∃ l, exec .strobeEnable s = .next { s with uq := l ++ s.uq } ∧
      readsAs s.cfg l [us s.cfg.tBusSettle, .setE true, us s.cfg.tEnHigh, .setE false]) ∧
    (∀ n, ∃ l, exec (.sendNibble n) s = .next { s with uq := l ++ s.uq } ∧
      readsAs s.cfg l [.writeD n, us s.cfg.tBusSettle, .setE true, us s.cfg.tEnHigh, .setE false]) ∧
    (∀ row col : Byte, ∃ l, exec (.setCursor row col) s = .next { s with uq := l ++ s.uq } ∧
      readsAs s.cfg l
        (if row = 1 then commandOps s.cfg (BitVec.ofNat 8 (s.cfg.row1Base.toNat + col.toNat + 255))
        else if row = 2 then commandOps s.cfg (BitVec.ofNat 8 (s.cfg.row2Base.toNat + col.toNat + 255))
        else []))

/-- R74, R92, R93, R101, R113 to R116 (that a command-byte row runs its command transaction is log 10): each sends its
byte through the command path, clear and home with the long wait. -/
def Obligations.CommandBytesRunTheCommandPath : Prop :=
  ∀ s : State, s.cfg.fits → s.cfg.cmdBytesDistinct →
    (∃ l, exec .cmdClear s = .next { s with uq := l ++ s.uq } ∧
      readsAs s.cfg l (transactionOps s.cfg false s.cfg.cmdClear s.cfg.tExecLong)) ∧
    (∃ l, exec .cmdHome s = .next { s with uq := l ++ s.uq } ∧
      readsAs s.cfg l (transactionOps s.cfg false s.cfg.cmdHome s.cfg.tExecLong)) ∧
    (∃ l, exec .cmdFuncset s = .next { s with uq := l ++ s.uq } ∧
      readsAs s.cfg l (transactionOps s.cfg false s.cfg.cmdFuncset s.cfg.tExecShort)) ∧
    (∃ l, exec .initDispctrl s = .next { s with uq := l ++ s.uq } ∧
      readsAs s.cfg l (transactionOps s.cfg false s.cfg.initDispctrl s.cfg.tExecShort)) ∧
    (∃ l, exec .initEntry s = .next { s with uq := l ++ s.uq } ∧
      readsAs s.cfg l (transactionOps s.cfg false s.cfg.initEntry s.cfg.tExecShort)) ∧
    (∀ a : BitVec 7, ∃ l, exec (.setDdramAddr a) s = .next { s with uq := l ++ s.uq } ∧
      readsAs s.cfg l (transactionOps s.cfg false (BitVec.ofNat 8 (128 + a.toNat)) s.cfg.tExecShort))

/-! ## Requests and their expansions -/

/-- R31, R34, R97: every request is accepted: Begin, the expansion pending, the index at 0, init_count up by one for
LCD_INIT; a request that expands to nothing ends at once. No line, no direction, no time and no memory changes. (exec
accepts a request in a busy or refused state too, where no step calls it: log 24.) -/
def Obligations.RequestsAreAccepted : Prop :=
  ∀ (s : State) (i : Instr), isRequest i = true → s.fault = none →
    ∃ t, exec i s = .next t ∧ t.uq = expand s.cfg i ∧ t.upc = 0 ∧
      (if expand s.cfg i = [] then t.cur = none ∧ t.trace = s.trace ++ [.reqBegin s.t i, .reqEnd s.t i]
      else t.cur = some i ∧ t.trace = s.trace ++ [.reqBegin s.t i]) ∧
      t.initCount = s.initCount + (if i = .lcdInit then 1 else 0) ∧ t.t = s.t ∧ t.ports = s.ports ∧ t.ddrs = s.ddrs ∧
      t.obs = s.obs ∧ t.mem = s.mem ∧ t.hostq = s.hostq ∧ t.fault = s.fault ∧ t.refused = s.refused ∧
      t.draws = s.draws ∧ t.cfg = s.cfg

/-- R91 to R94: a command and a character are thirteen micro-ops: RS, its settle wait, the high nibble strobed, the low
nibble strobed, the trailing wait, which is long for clear and home only and never for a character. -/
def Obligations.CommandAndCharacterTransactions : Prop :=
  ∀ (c : Config) (b : Byte), c.fits →
    readsAs c (expand c (.lcdCommand b))
      [.setRs false, us c.tRsSetup,
        .writeD (b.extractLsb' 4 4), us c.tBusSettle, .setE true, us c.tEnHigh, .setE false,
        .writeD (b.extractLsb' 0 4), us c.tBusSettle, .setE true, us c.tEnHigh, .setE false,
        us (if b = c.cmdClear ∨ b = c.cmdHome then c.tExecLong else c.tExecShort)] ∧
    readsAs c (expand c (.lcdPrintChar b))
      [.setRs true, us c.tRsSetup,
        .writeD (b.extractLsb' 4 4), us c.tBusSettle, .setE true, us c.tEnHigh, .setE false,
        .writeD (b.extractLsb' 0 4), us c.tBusSettle, .setE true, us c.tEnHigh, .setE false,
        us c.tChar]

/-- R101: the address function, computed on integers and reduced mod 256, and its corner values at the default bases. -/
def Obligations.AddressFunction : Prop :=
  (∀ (c : Config) (row col : Byte),
    ∃ a1 a2 : Byte, ((a1.toNat : Int) = ((c.row1Base.toNat : Int) + col.toNat - 1) % 256) ∧
      ((a2.toNat : Int) = ((c.row2Base.toNat : Int) + col.toNat - 1) % 256) ∧
      ddramCmd c row col = if row = 1 then some a1 else if row = 2 then some a2 else none) ∧
  (ddramCmd Config.default 1 0 = some 0x7F ∧ ddramCmd Config.default 2 0 = some 0xBF ∧
    ddramCmd Config.default 1 65 = some 0xC0 ∧ ddramCmd Config.default 2 1 = some 0xC0 ∧
    ddramCmd Config.default 1 130 = some 0x01 ∧ ddramCmd Config.default 2 66 = some 0x01 ∧
    ddramCmd Config.default 1 131 = some 0x02 ∧ ddramCmd Config.default 2 67 = some 0x02)

/-- R106: at the default bases the valid positions map one-to-one onto 0x80–0x8F and 0xC0–0xCF. -/
def Obligations.ValidPositionsHaveDistinctAddresses : Prop :=
  (∀ row col row' col' : Byte,
    validPosition Config.default row col = true → validPosition Config.default row' col' = true →
    ddramCmd Config.default row col = ddramCmd Config.default row' col' → row = row' ∧ col = col') ∧
  (∀ a : Byte, ((0x80 ≤ a.toNat ∧ a.toNat ≤ 0x8F) ∨ (0xC0 ≤ a.toNat ∧ a.toNat ≤ 0xCF)) ↔
    ∃ row col, validPosition Config.default row col = true ∧ ddramCmd Config.default row col = some a)

/-- R103: a positioned write issues the address command and then the body; for a row outside {1, 2} no address command,
and the body only if INVALID_ROW_SENDS_DATA. -/
def Obligations.PositionedWrites : Prop :=
  ∀ (c : Config) (b row col : Byte) (s : List Byte),
    (∀ a, ddramCmd c row col = some a →
      expand c (.lcdPrintCharAt b row col) = expand c (.lcdCommand a) ++ expand c (.lcdPrintChar b) ∧
      expand c (.lcdPrintStringAt s row col) = expand c (.lcdCommand a) ++ expand c (.lcdPrintString s) ∧
      (c.fits → (expand c (.lcdPrintCharAt b row col)).length = 26)) ∧
    (row ≠ 1 → row ≠ 2 → c.invalidRowSendsData = true →
      expand c (.lcdPrintCharAt b row col) = expand c (.lcdPrintChar b) ∧
      expand c (.lcdPrintStringAt s row col) = expand c (.lcdPrintString s) ∧
      (c.fits → (expand c (.lcdPrintCharAt b row col)).length = 13)) ∧
    (row ≠ 1 → row ≠ 2 → c.invalidRowSendsData = false →
      expand c (.lcdPrintCharAt b row col) = [] ∧ expand c (.lcdPrintStringAt s row col) = []) ∧
    ((row = 1 ∨ row = 2) ↔ ∃ a, ddramCmd c row col = some a)

/-- R95: the payload ends at the least index that holds 0x00; without one the whole list is the payload and it is
unterminated; a bounded list is sent whole. -/
def Obligations.PayloadEndsAtTheFirstNul : Prop :=
  ∀ s : List Byte,
    (∀ k : Nat, s[k]? = some 0x00 → (∀ j : Nat, j < k → s[j]? ≠ some 0x00) →
      payload .nulTerminated s = s.take k ∧ terminated .nulTerminated s = true) ∧
    ((∀ j : Nat, s[j]? ≠ some 0x00) → payload .nulTerminated s = s ∧ terminated .nulTerminated s = false) ∧
    payload .lengthBounded s = s ∧ terminated .lengthBounded s = true

/-- R96: a string is its payload's characters one after the other, and a FAULT 1 if it is not terminated. -/
def Obligations.StringsAreCharactersThenFault : Prop :=
  ∀ (c : Config) (s : List Byte), c.fits →
    readsAs c (expand c (.lcdPrintString s))
      ((payload c.stringMode s).flatMap (charOps c) ++ if terminated c.stringMode s = true then [] else [.fault 1]) ∧
    (expand c (.lcdPrintString s)).length =
      13 * (payload c.stringMode s).length + (if terminated c.stringMode s = true then 0 else 1)

/-- R96, R105: bytes after the first 0x00 do not matter, and for a row outside {1, 2} that sends no data the string does
not matter at all. -/
def Obligations.UnreadBytesDoNotMatter : Prop :=
  (∀ (c : Config) (s t : List Byte) (k : Nat), c.stringMode = .nulTerminated → s[k]? = some 0x00 →
    t.take (k + 1) = s.take (k + 1) →
    expand c (.lcdPrintString t) = expand c (.lcdPrintString s) ∧
    endsInFault c (.lcdPrintString t) = endsInFault c (.lcdPrintString s) ∧
    ∀ row col : Byte, expand c (.lcdPrintStringAt t row col) = expand c (.lcdPrintStringAt s row col) ∧
      endsInFault c (.lcdPrintStringAt t row col) = endsInFault c (.lcdPrintStringAt s row col)) ∧
  (∀ (c : Config) (s t : List Byte) (row col : Byte), c.invalidRowSendsData = false → row ≠ 1 → row ≠ 2 →
    expand c (.lcdPrintStringAt t row col) = expand c (.lcdPrintStringAt s row col) ∧
    endsInFault c (.lcdPrintStringAt s row col) = false)

/-- R72, with R88, R89, R93, R94, R96, R102, R109: at every choice of the waits, those that need several DELAYs too, each
wait is DELAYs whose arguments sum to it, and each expansion is the spec's with its waits so written. (The order in which a
long wait is split is log 19; that composites and command bytes expand in place is logs 9 and 10.) -/
def Obligations.LongWaitsAreSplitAndSumUp : Prop :=
  ∀ c : Config, ∃ w : Nat → List Instr,
    (∀ n, ∃ args : List (BitVec 24), w n = args.map Instr.delay ∧ args ≠ [] ∧ (args.map BitVec.toNat).sum = n ∧
      (n ≤ 16777215 → w n = [us n])) ∧
    readsAs c (expand c .strobeEnable) (strobeWith w c) ∧
    (∀ n, readsAs c (expand c (.sendNibble n)) (nibbleWith w c n)) ∧
    (∀ b, readsAs c (expand c (.lcdCommand b)) (commandWith w c b)) ∧
    (∀ b, readsAs c (expand c (.lcdPrintChar b)) (transactionWith w c true b c.tChar)) ∧
    (∀ s, readsAs c (expand c (.lcdPrintString s))
      ((payload c.stringMode s).flatMap (fun b => transactionWith w c true b c.tChar) ++
        if terminated c.stringMode s = true then [] else [.fault 1])) ∧
    (∀ row col, readsAs c (expand c (.setCursor row col))
      (match ddramCmd c row col with
      | some a => commandWith w c a
      | none => [])) ∧
    readsAs c (expand c .cmdClear) (commandWith w c c.cmdClear) ∧
    readsAs c (expand c .cmdHome) (commandWith w c c.cmdHome) ∧
    readsAs c (expand c .cmdFuncset) (commandWith w c c.cmdFuncset) ∧
    readsAs c (expand c .initDispctrl) (commandWith w c c.initDispctrl) ∧
    readsAs c (expand c .initEntry) (commandWith w c c.initEntry) ∧
    (∀ a : BitVec 7, readsAs c (expand c (.setDdramAddr a)) (commandWith w c (BitVec.ofNat 8 (128 + a.toNat)))) ∧
    readsAs c (expand c .lcdInit)
      ([.cfgOut, .setRs false, .setE false] ++ w c.tPower ++ nibbleWith w c c.nibReset ++ w c.tReset1 ++
        nibbleWith w c c.nibReset ++ w c.tReset2 ++ nibbleWith w c c.nibReset ++ w c.tReset3 ++ nibbleWith w c c.nib4Bit ++
        commandWith w c c.cmdFuncset ++ commandWith w c c.cmdClear ++ commandWith w c c.initDispctrl ++
        commandWith w c c.initEntry ++ w c.tFinal) ∧
    (∀ (s : State) (i : Instr), s.cfg = c →
      (i = .strobeEnable ∨ (∃ n, i = .sendNibble n) ∨ (∃ row col, i = .setCursor row col) ∨ i = .cmdClear ∨ i = .cmdHome ∨
        i = .cmdFuncset ∨ i = .initDispctrl ∨ i = .initEntry ∨ (∃ a, i = .setDdramAddr a)) →
      exec i s = .next { s with uq := expand c i ++ s.uq })

/-- R109: LCD_INIT expands to its eighty micro-ops. -/
def Obligations.InitExpansionHasEightyMicroOps : Prop :=
  ∀ c : Config, c.fits →
    readsAs c (expand c .lcdInit)
      ([.cfgOut, .setRs false, .setE false, us c.tPower] ++ nibbleOps c c.nibReset ++ [us c.tReset1] ++
        nibbleOps c c.nibReset ++ [us c.tReset2] ++ nibbleOps c c.nibReset ++ [us c.tReset3] ++ nibbleOps c c.nib4Bit ++
        commandOps c c.cmdFuncset ++ commandOps c c.cmdClear ++ commandOps c c.initDispctrl ++ commandOps c c.initEntry ++
        [us c.tFinal]) ∧
    (expand c .lcdInit).length = 80

/-- R107: the state of the initialization machine is a function of the index alone. -/
def Obligations.InitStatesFollowTheIndex : Prop :=
  (∀ (c : Config) (n : Nat), c.fits →
    initStateAt c n =
      if n ≤ 3 then .powerSettle else if n ≤ 9 then .reset1 else if n ≤ 15 then .reset2 else if n ≤ 21 then .reset3
      else if n ≤ 26 then .mode4Bit else if n ≤ 39 then .functionSet else if n ≤ 52 then .displayClear
      else if n ≤ 65 then .cursorMode else if n ≤ 78 then .entryMode else if n ≤ 79 then .finalSettle else .ready) ∧
  (∀ s : State, s.cur = some .lcdInit → s.initState = some (initStateAt s.cfg s.upc))

/-- R97: no expansion of a request holds a reserved word: every entry is a UOP word that decodes. -/
def Obligations.ExpansionsHoldDecodableMicroOps : Prop :=
  ∀ (c : Config) (i : Instr), isRequest i = true → ∀ it ∈ expand c i, ∃ w j, it = .uop w ∧ decodeUop w = .ok j

/-- R147: the number of micro-ops, the waits and the draws (micro-ops that are no DELAY) of each request at the default
waits. -/
def Obligations.NominalDurations : Prop :=
  ∀ c : Config, c.atDefaults →
    ((expand c .lcdInit).length = 80 ∧ totalWait c (expand c .lcdInit) = 157784 ∧ totalDraws c (expand c .lcdInit) = 43) ∧
    (∀ b : Byte, (expand c (.lcdCommand b)).length = 13 ∧ totalDraws c (expand c (.lcdCommand b)) = 7 ∧
      totalWait c (expand c (.lcdCommand b)) = if b = 0x01 ∨ b = 0x02 then 1761 else 201) ∧
    (∀ b : Byte, (expand c (.lcdPrintChar b)).length = 13 ∧ totalDraws c (expand c (.lcdPrintChar b)) = 7 ∧
      totalWait c (expand c (.lcdPrintChar b)) = 201) ∧
    (∀ b row col a : Byte, ddramCmd c row col = some a → (expand c (.lcdPrintCharAt b row col)).length = 26 ∧
      totalDraws c (expand c (.lcdPrintCharAt b row col)) = 14 ∧
      totalWait c (expand c (.lcdPrintCharAt b row col)) = if a = 0x01 ∨ a = 0x02 then 1962 else 402) ∧
    (∀ b row col : Byte, ddramCmd c row col = none → c.invalidRowSendsData = true →
      (expand c (.lcdPrintCharAt b row col)).length = 13 ∧ totalDraws c (expand c (.lcdPrintCharAt b row col)) = 7 ∧
      totalWait c (expand c (.lcdPrintCharAt b row col)) = 201) ∧
    (∀ s : List Byte, terminated c.stringMode s = true →
      (expand c (.lcdPrintString s)).length = 13 * (payload c.stringMode s).length ∧
      totalDraws c (expand c (.lcdPrintString s)) = 7 * (payload c.stringMode s).length ∧
      totalWait c (expand c (.lcdPrintString s)) = 201 * (payload c.stringMode s).length) ∧
    (∀ (s : List Byte) (row col a : Byte), terminated c.stringMode s = true → ddramCmd c row col = some a →
      a ≠ 0x01 → a ≠ 0x02 →
      (expand c (.lcdPrintStringAt s row col)).length = 13 * ((payload c.stringMode s).length + 1) ∧
      totalDraws c (expand c (.lcdPrintStringAt s row col)) = 7 * ((payload c.stringMode s).length + 1) ∧
      totalWait c (expand c (.lcdPrintStringAt s row col)) = 201 * ((payload c.stringMode s).length + 1))

/-! ## Whole requests -/

/-- R98, R99: with the lines outputs and E low, a transaction makes exactly two latches, the high nibble and then the low
one, with its RS; the gaps are at least the waits, and the whole takes at most seven draws more. -/
def Obligations.TransactionLatchesTwoNibbles : Prop :=
  ∀ (s : State) (rs : Bool) (b : Byte) (w : Nat) (rest : List Item),
    s.safe → s.cfg.handle.wf → s.uq = seqTransaction s.cfg rs b w ++ rest → s.linesDriven → s.outE = false →
    ∃ t t1 t2, Host.Core.run core (seqTransaction s.cfg rs b w).length s = .next t ∧ t.uq = rest ∧ t.safe ∧
      latches t.trace = latches s.trace ++
        [(t1, some rs, some (b.extractLsb' 4 4)), (t2, some rs, some (b.extractLsb' 0 4))] ∧
      t.obs = (s.obs.latch s.cfg t1 (some rs) (some (b.extractLsb' 4 4))).latch s.cfg t2 (some rs)
        (some (b.extractLsb' 0 4)) ∧
      s.t + s.cfg.tRsSetup + s.cfg.tBusSettle + s.cfg.tEnHigh ≤ t1 ∧
      t1 + s.cfg.tBusSettle + s.cfg.tEnHigh ≤ t2 ∧ t2 + w ≤ t.t ∧
      (∀ d, s.cfg.deltaMax = some d →
        t.t ≤ s.t + s.cfg.tRsSetup + 2 * (s.cfg.tBusSettle + s.cfg.tEnHigh) + w + 7 * d) ∧
      t.outRs = rs ∧ t.outE = false ∧ t.ddrs = s.ddrs ∧ t.cfg = s.cfg

/-- R34, R70, R81, R99, R123, R127, R129: a request, whatever its operands, is accepted and runs to its end or to its FAULT,
in as many steps as it has micro-ops; it takes its waits and at most DELTA_MAX for each draw more. -/
def Obligations.RequestRunsToItsEndOrFault : Prop :=
  ∀ (s : State) (q : HostReq) (qs : List HostReq) (i : Instr),
    s.safe → s.idle → s.hostq = q :: qs →
    decodeReq { word := q.word, s := (s.hostArrive q qs).listOperand q } = .ok i →
    ∃ t es, Host.Core.run core ((expand s.cfg i).length + 1) s = .next t ∧ t.uq = [] ∧ t.refused = none ∧
      t.upc = (expand s.cfg i).length ∧ t.hostq = qs ∧
      (if endsInFault s.cfg i = true then
        t.fault = some 1 ∧ t.cur = some i ∧ t.trace = s.trace ++ .reqBegin (s.t + q.think) i :: es ++ [.fault t.t 1]
      else t.fault = none ∧ t.cur = none ∧ t.trace = s.trace ++ .reqBegin (s.t + q.think) i :: es ++ [.reqEnd t.t i]) ∧
      s.t + q.think + totalWait s.cfg (expand s.cfg i) ≤ t.t ∧
      (∀ d, s.cfg.deltaMax = some d →
        t.t ≤ s.t + q.think + totalWait s.cfg (expand s.cfg i) + d * totalDraws s.cfg (expand s.cfg i))

/-- R119: at the default waits with every δ = 0 and E low, LCD_INIT makes its twelve latches at these times after its
acceptance, and ends 157784 µs after it. -/
def Obligations.InitTimeline : Prop :=
  ∀ (s : State) (q : HostReq) (qs : List HostReq),
    s.safe → s.idle → s.hostq = q :: qs → reqOp q.word = 0x0 → s.cfg.atDefaults → s.cfg.handle.wf →
    s.cfg.deltaMax = some 0 → s.outE = false →
    ∃ t, Host.Core.run core 81 s = .next t ∧ t.idle ∧ t.safe ∧ t.t = s.t + q.think + 157784 ∧
      latches t.trace = latches s.trace ++
        [ (s.t + q.think + 100080, some false, some 0x3), (s.t + q.think + 105160, some false, some 0x3),
          (s.t + q.think + 105340, some false, some 0x3), (s.t + q.think + 105420, some false, some 0x2),
          (s.t + q.think + 105501, some false, some 0x2), (s.t + q.think + 105581, some false, some 0x8),
          (s.t + q.think + 105702, some false, some 0x0), (s.t + q.think + 105782, some false, some 0x1),
          (s.t + q.think + 107463, some false, some 0x0), (s.t + q.think + 107543, some false, some 0xF),
          (s.t + q.think + 107664, some false, some 0x0), (s.t + q.think + 107744, some false, some 0x6) ]

/-- R120(e), R142: at the defaults, LCD_INIT makes the observer ready from any prior observer state, under every δ. -/
def Obligations.InitMakesTheObserverReady : Prop :=
  ∀ (s : State) (q : HostReq) (qs : List HostReq),
    s.safe → s.idle → s.hostq = q :: qs → reqOp q.word = 0x0 → s.cfg.atDefaults → s.cfg.handle.wf →
    ∃ t, Host.Core.run core 81 s = .next t ∧ t.idle ∧ t.safe ∧ t.linesDriven ∧ t.outE = false ∧
      t.obs.ready t.cfg ∧ t.obs.ac = .ddram 0 ∧ (∀ a, a < 128 → Cells.read t.obs.ddram a = some 0x20) ∧
      t.initCount = s.initCount + 1

/-! ## Encoding -/

/-- R68, R69, R71, R72, R74: decoding an encoded instruction gives it back, for every instruction and every operand,
where the parameters keep the command-byte rows apart. -/
def Obligations.DecodeOfEncode : Prop :=
  (∀ (c : Config) (i : Instr), c.cmdBytesDistinct → decode c (encode c i) = .ok i) ∧ Config.default.cmdBytesDistinct

/-- R68, R69, R72: each field of a word is read from its bits, written here as numbers. -/
def Obligations.DecodersReadTheFields : Prop :=
  (∀ r : Req,
    (r.word.toNat % 16 = 0 → decodeReq r = .ok .lcdInit) ∧
    (r.word.toNat % 16 = 1 → decodeReq r = .ok (.lcdCommand (BitVec.ofNat 8 (r.word.toNat / 2 ^ 4)))) ∧
    (r.word.toNat % 16 = 2 → decodeReq r = .ok (.lcdPrintChar (BitVec.ofNat 8 (r.word.toNat / 2 ^ 4)))) ∧
    (r.word.toNat % 16 = 3 → decodeReq r = .ok (.lcdPrintCharAt (BitVec.ofNat 8 (r.word.toNat / 2 ^ 4))
      (BitVec.ofNat 8 (r.word.toNat / 2 ^ 12)) (BitVec.ofNat 8 (r.word.toNat / 2 ^ 20)))) ∧
    (r.word.toNat % 16 = 4 → decodeReq r = .ok (.lcdPrintString r.s)) ∧
    (r.word.toNat % 16 = 5 → decodeReq r = .ok (.lcdPrintStringAt r.s (BitVec.ofNat 8 (r.word.toNat / 2 ^ 12))
      (BitVec.ofNat 8 (r.word.toNat / 2 ^ 20))))) ∧
  (∀ w : BitVec 32,
    (w.toNat % 8 = 0 → decodeUop w = .ok .cfgOut) ∧
    (w.toNat % 8 = 1 → decodeUop w = .ok (.setRs (decide (w.toNat / 2 ^ 3 % 2 = 1)))) ∧
    (w.toNat % 8 = 2 → decodeUop w = .ok (.setE (decide (w.toNat / 2 ^ 3 % 2 = 1)))) ∧
    (w.toNat % 8 = 3 → decodeUop w = .ok (.writeD (BitVec.ofNat 4 (w.toNat / 2 ^ 4)))) ∧
    (w.toNat % 8 = 4 → decodeUop w = .ok (.delay (BitVec.ofNat 24 (w.toNat / 2 ^ 8)))) ∧
    (w.toNat % 8 = 5 → decodeUop w = .ok (.fault (BitVec.ofNat 24 (w.toNat / 2 ^ 8)))))

/-- R70, R76: the decoders accept exactly the defined codes: REQ op 0 to 5, UOP code 0 to 5, MACRO code 0 to 2. -/
def Obligations.ReservedEncodingsAreRefused : Prop :=
  (∀ r : Req, (∃ i, decodeReq r = .ok i) ↔ (reqOp r.word).toNat ≤ 5) ∧
  (∀ w : BitVec 32, (∃ i, decodeUop w = .ok i) ↔ (uopCode w).toNat ≤ 5) ∧
  (∀ (code n : Nibble) (row col : Byte), (∃ i, decodeMacro code n row col = .ok i) ↔ code.toNat ≤ 2) ∧
  (∀ (s : State) (it : Item) (rest : List Item) (e : DecodeError), s.safe → s.uq = it :: rest →
    decodeItem s.cfg it = .error e → step s = .refused (.undecodable e))

/-- T-ENC for REQ and UOP words, R71 for MACRO codes, R74 for command bytes: words of the spec decode to the instructions
they stand for. -/
def Obligations.SpecWordsDecode : Prop :=
  decodeReq ⟨0x0000011, []⟩ = .ok (.lcdCommand 0x01) ∧ decodeReq ⟨0x1101413, []⟩ = .ok (.lcdPrintCharAt 0x41 1 17) ∧
  decodeReq ⟨0x0102005, [0x48, 0x49, 0x00]⟩ = .ok (.lcdPrintStringAt [0x48, 0x49, 0x00] 2 1) ∧
  decodeUop 0x0000000A = .ok (.setE true) ∧ decodeUop 0x000000F3 = .ok (.writeD 0xF) ∧
  decodeUop 0x0186A004 = .ok (.delay 100000) ∧ decodeUop 0x00000105 = .ok (.fault 1) ∧
  decodeMacro 0x1 0x3 0 0 = .ok (.sendNibble 0x3) ∧ decodeMacro 0x2 0x0 2 16 = .ok (.setCursor 2 16) ∧ decodeCmd Config.default 0x28 = .ok .cmdFuncset ∧
  decodeCmd Config.default 0xC0 = .ok (.setDdramAddr 0x40)

/-- R43, R73, R75: a byte splits into its nibbles, high first, the pair makes the byte again, and a LATCH frame is RS in
bit 4 over the nibble. -/
def Obligations.BytesTravelAsTwoFrames : Prop :=
  ∀ (rs : Bool) (b : Byte),
    (hiNibble b).toNat = b.toNat / 16 ∧ (loNibble b).toNat = b.toNat % 16 ∧ joinNibbles (hiNibble b) (loNibble b) = b ∧
    (byteFrames rs b).map BitVec.toNat = [(if rs then 16 else 0) + b.toNat / 16, (if rs then 16 else 0) + b.toNat % 16]

/-! ## The controller -/

/-- R58: a latch with an undriven line loses everything in any mode; a latch before busy_until in a known mode loses
everything and is then processed as in mode UNKNOWN. -/
def Obligations.TimingViolationLosesEverything : Prop :=
  ∀ (c : Config) (o : Observer) (t : Nat) (rs : Option Bool) (n : Option Nibble) (lost : Observer),
    lost = { o with ddram := [], ac := .unknown, func := none, dctl := none, entry := none, shift := .unknown
                    mode := .unknown, k := 0 } →
    (rs = none ∨ n = none → o.latch c t rs n = lost) ∧
    (rs ≠ none → n ≠ none → o.mode ≠ .unknown → t < o.busyUntil → o.latch c t rs n = lost.latch c t rs n)

/-- R59: the blind reset in mode UNKNOWN, with the gaps on integers. -/
def Obligations.BlindResetCountsThreePulses : Prop :=
  ∀ (c : Config) (o : Observer) (t : Nat) (r : Bool) (n : Nibble), o.mode = .unknown →
    (¬ (r = false ∧ n = c.nibReset) → o.latch c t (some r) (some n) = { o with k := 0 }) ∧
    (r = false → n = c.nibReset →
      (o.k = 0 → o.latch c t (some r) (some n) =
        { o with k := if c.obsPowerMin ≤ t then 1 else 0, tk := some t }) ∧
      (∀ x, o.k = 1 → o.tk = some x → o.latch c t (some r) (some n) =
        if (c.obsResetGap1 : Int) ≤ (t : Int) - x then { o with k := 2, tk := some t }
        else { o with k := if c.obsPowerMin ≤ t then 1 else 0, tk := some t }) ∧
      (∀ x, o.k = 2 → o.tk = some x → o.latch c t (some r) (some n) =
        if (c.obsResetGap2 : Int) ≤ (t : Int) - x then
          { o with k := 0, mode := .m8, func := none, busyUntil := t + c.obsExecShort }
        else { o with k := if c.obsPowerMin ≤ t then 1 else 0, tk := some t }))

/-- R60, R61: a latch after the busy check in mode M8, and the pairing of nibbles in 4-bit mode; a pair whose RS differs
is handed to the rule of mode UNKNOWN with everything lost. -/
def Obligations.NibblesAreReadByTheMode : Prop :=
  ∀ (c : Config) (o : Observer) (t : Nat) (r : Bool) (n : Nibble), o.busyUntil ≤ t →
    (o.mode = .m8 → o.latch c t (some r) (some n) =
      if r = false ∧ n = 0x3 then { o with func := none, busyUntil := t + c.obsExecShort }
      else if r = false ∧ n = 0x2 then { o with mode := .m4h, func := none, busyUntil := t + c.obsExecShort }
      else { o with ddram := [], ac := .unknown, dctl := none, entry := none, shift := .unknown
                    busyUntil := t + c.obsExecLong }) ∧
    (o.mode = .m4h → o.latch c t (some r) (some n) = { o with mode := .m4l r n }) ∧
    (∀ hi, o.mode = .m4l r hi → o.latch c t (some r) (some n) =
      if r = true then Observer.execCharacter c { o with mode := .m4h } (BitVec.ofNat 8 (16 * hi.toNat + n.toNat)) t
      else Observer.execInstruction c { o with mode := .m4h } (BitVec.ofNat 8 (16 * hi.toNat + n.toNat)) t) ∧
    (∀ hi, o.mode = .m4l (!r) hi → o.latch c t (some r) (some n) = o.lose.latch c t (some r) (some n))

/-- R62: what the controller does with each instruction byte, by the ranges of its table. -/
def Obligations.ControllerInstructionTable : Prop :=
  ∀ (c : Config) (o : Observer) (b : Byte) (t : Nat),
    (b.toNat = 0 → o.execInstruction c b t =
      { o with ddram := [], ac := .unknown, func := none, dctl := none, entry := none, shift := .unknown
               mode := .unknown, k := 0 }) ∧
    (b.toNat = 1 → ∃ d, (∀ a, Cells.read d a = if a < 128 then some 0x20 else none) ∧ o.execInstruction c b t =
      { o with ddram := d, ac := .ddram 0, shift := .zero, busyUntil := t + c.obsExecLong
               entry := match o.entry with
                        | none => none
                        | some e => some (e ||| 0x02) }) ∧
    (2 ≤ b.toNat ∧ b.toNat ≤ 3 → o.execInstruction c b t =
      { o with ac := .ddram 0, shift := .zero, busyUntil := t + c.obsExecLong }) ∧
    (4 ≤ b.toNat ∧ b.toNat ≤ 7 → o.execInstruction c b t = { o with entry := some b, busyUntil := t + c.obsExecShort }) ∧
    (8 ≤ b.toNat ∧ b.toNat ≤ 0xF → o.execInstruction c b t = { o with dctl := some b, busyUntil := t + c.obsExecShort }) ∧
    (0x10 ≤ b.toNat ∧ b.toNat ≤ 0x1F → o.execInstruction c b t =
      if b.toNat / 8 % 2 = 1 then { o with shift := .unknown, busyUntil := t + c.obsExecShort }
      else { o with ac := if b.toNat / 4 % 2 = 1 then o.acSucc o.ac else o.acPred o.ac, busyUntil := t + c.obsExecShort }) ∧
    (0x20 ≤ b.toNat ∧ b.toNat ≤ 0x3F → o.execInstruction c b t =
      { o with func := some b, mode := if b.toNat / 16 % 2 = 1 then .m8 else .m4h, busyUntil := t + c.obsExecShort }) ∧
    (0x40 ≤ b.toNat ∧ b.toNat ≤ 0x7F → o.execInstruction c b t = { o with ac := .cg, busyUntil := t + c.obsExecShort }) ∧
    (0x80 ≤ b.toNat → o.execInstruction c b t =
      { o with ac := if o.valid (BitVec.ofNat 7 b.toNat) = true then .ddram (BitVec.ofNat 7 b.toNat) else .unknown
               busyUntil := t + c.obsExecShort })

/-- R63: what a character write does, for each kind of address counter. -/
def Obligations.CharacterWrites : Prop :=
  ∀ (c : Config) (o : Observer) (b : Byte) (t : Nat) (o' : Observer), o' = o.execCharacter c b t →
    o'.busyUntil = t + c.obsExecShort ∧ o'.mode = o.mode ∧ o'.func = o.func ∧ o'.dctl = o.dctl ∧ o'.entry = o.entry ∧
    o'.k = o.k ∧ o'.tk = o.tk ∧
    (∀ a, o.ac = .ddram a →
      (∀ x, Cells.read o'.ddram x = if x = a.toNat then some b else Cells.read o.ddram x) ∧
      (o.entry = none → o'.ac = .unknown ∧ o'.shift = o.shift) ∧
      (∀ e, o.entry = some e →
        o'.ac = (if e.toNat / 2 % 2 = 1 then o.acSucc o.ac else o.acPred o.ac) ∧
        o'.shift = (if e.toNat % 2 = 1 then .unknown else o.shift))) ∧
    (o.ac = .cg → o'.ddram = o.ddram ∧ o'.ac = .cg ∧ o'.shift = o.shift) ∧
    (o.ac = .unknown → (∀ x, Cells.read o'.ddram x = none) ∧ o'.ac = .unknown ∧ o'.shift = o.shift)

/-- R64: valid, ac_succ and ac_pred in 2-line mode, and that outside it nothing is valid and both give ⊥. -/
def Obligations.AddressCounterMoves : Prop :=
  ∀ o : Observer,
    ((∃ f, o.func = some f ∧ f.toNat / 8 % 2 = 1) →
      (∀ a : BitVec 7, o.valid a = true ↔ (a.toNat ≤ 0x27 ∨ 0x40 ≤ a.toNat ∧ a.toNat ≤ 0x67)) ∧
      (∀ a : BitVec 7, o.valid a = true → ∃ b : BitVec 7, o.acSucc (.ddram a) = .ddram b ∧
        b.toNat = if a.toNat = 0x27 then 0x40 else if a.toNat = 0x67 then 0x00 else a.toNat + 1) ∧
      (∀ a : BitVec 7, o.valid a = true → ∃ b : BitVec 7, o.acPred (.ddram a) = .ddram b ∧
        b.toNat = if a.toNat = 0x40 then 0x27 else if a.toNat = 0x00 then 0x67 else a.toNat - 1) ∧
      o.acSucc .cg = .cg ∧ o.acPred .cg = .cg ∧ o.acSucc .unknown = .unknown ∧ o.acPred .unknown = .unknown) ∧
    (¬ (∃ f, o.func = some f ∧ f.toNat / 8 % 2 = 1) →
      (∀ a, o.valid a = false) ∧ ∀ ac, o.acSucc ac = .unknown ∧ o.acPred ac = .unknown)

/-- R65: the visible character at a position, and where it is defined. -/
def Obligations.VisibleCharacters : Prop :=
  ∀ (c : Config) (o : Observer) (row col : Nat), 1 ≤ col → col ≤ c.displayCols →
    (o.mode = .m4h ∧ (∃ f, o.func = some f ∧ f.toNat / 8 % 2 = 1) ∧ o.shift = .zero ∧
        (∃ d, o.dctl = some d ∧ d.toNat / 4 % 2 = 1) →
      (row = 1 → o.view c row col = Cells.read o.ddram (0x00 + col - 1)) ∧
      (row = 2 → o.view c row col = Cells.read o.ddram (0x40 + col - 1))) ∧
    (¬ (o.mode = .m4h ∧ (∃ f, o.func = some f ∧ f.toNat / 8 % 2 = 1) ∧ o.shift = .zero ∧
        (∃ d, o.dctl = some d ∧ d.toNat / 4 % 2 = 1)) → o.view c row col = none)

/-- R100: a clear leaves the DDRAM all 0x20 and the cursor at row 1, column 1, and a second clear changes nothing but
busy_until. -/
def Obligations.ClearIsIdempotent : Prop :=
  ∀ (c : Config) (o o1 o2 : Observer) (t1 t2 t3 t4 : Nat),
    o.mode = .m4h → (∃ f, o.func = some f ∧ f.toNat / 8 % 2 = 1) → o.busyUntil ≤ t1 → t1 ≤ t2 →
    o1 = (o.latch c t1 (some false) (some 0x0)).latch c t2 (some false) (some 0x1) →
    o1.busyUntil ≤ t3 → t3 ≤ t4 →
    o2 = (o1.latch c t3 (some false) (some 0x0)).latch c t4 (some false) (some 0x1) →
    (∀ a, a < 128 → Cells.read o1.ddram a = some 0x20) ∧ o1.ac = .ddram 0 ∧ o1.shift = .zero ∧ o1.mode = .m4h ∧
      o1.func = o.func ∧ o1.dctl = o.dctl ∧ o2 = { o1 with busyUntil := t4 + c.obsExecLong }
end

