-- ==== Sys2Proof/Laws/Decode.lean ====
section
/-! SUPPORT. The fields of the encoded words, and what the words of the expansions decode to. -/

namespace Sys2Proof

@[simp] theorem uopCode_uopWord (code : BitVec 3) (v : Bool) (n : Nibble) (arg : BitVec 24) :
    uopCode (uopWord code v n arg) = code := by
  unfold uopCode uopWord
  ext i hi
  rw [BitVec.getElem_extractLsb', BitVec.getLsbD_append]
  simp [hi]

@[simp] theorem uopV_uopWord (code : BitVec 3) (v : Bool) (n : Nibble) (arg : BitVec 24) :
    uopV (uopWord code v n arg) = v := by
  unfold uopV uopWord
  rw [BitVec.getLsbD_append, BitVec.getLsbD_append]
  simp

@[simp] theorem uopN_uopWord (code : BitVec 3) (v : Bool) (n : Nibble) (arg : BitVec 24) :
    uopN (uopWord code v n arg) = n := by
  unfold uopN uopWord
  ext i hi
  rw [BitVec.getElem_extractLsb', BitVec.getLsbD_append, BitVec.getLsbD_append, BitVec.getLsbD_append]
  have h1 : ¬ (4 + i < 3) := by omega
  have h2 : ¬ (4 + i - 3 < 1) := by omega
  have h3 : 4 + i - 3 - 1 = i := by omega
  rw [if_neg h1, if_neg h2, h3]
  simp [hi]

@[simp] theorem uopArg_uopWord (code : BitVec 3) (v : Bool) (n : Nibble) (arg : BitVec 24) :
    uopArg (uopWord code v n arg) = arg := by
  unfold uopArg uopWord
  ext i hi
  rw [BitVec.getElem_extractLsb', BitVec.getLsbD_append, BitVec.getLsbD_append, BitVec.getLsbD_append]
  have h1 : ¬ (8 + i < 3) := by omega
  have h2 : ¬ (8 + i - 3 < 1) := by omega
  have h3 : ¬ (8 + i - 3 - 1 < 4) := by omega
  have h4 : 8 + i - 3 - 1 - 4 = i := by omega
  rw [if_neg h1, if_neg h2, if_neg h3, h4, BitVec.getLsbD_eq_getElem hi]

@[simp] theorem reqOp_reqWord (op : Nibble) (b row col : Byte) : reqOp (reqWord op b row col) = op := by
  unfold reqOp reqWord
  ext i hi
  rw [BitVec.getElem_extractLsb', BitVec.getLsbD_append]
  simp [hi]

@[simp] theorem reqB_reqWord (op : Nibble) (b row col : Byte) : reqB (reqWord op b row col) = b := by
  unfold reqB reqWord
  ext i hi
  rw [BitVec.getElem_extractLsb', BitVec.getLsbD_append, BitVec.getLsbD_append]
  simp [hi]

@[simp] theorem reqRow_reqWord (op : Nibble) (b row col : Byte) : reqRow (reqWord op b row col) = row := by
  unfold reqRow reqWord
  ext i hi
  rw [BitVec.getElem_extractLsb', BitVec.getLsbD_append, BitVec.getLsbD_append, BitVec.getLsbD_append]
  have h1 : ¬ (12 + i < 4) := by omega
  have h2 : ¬ (12 + i - 4 < 8) := by omega
  have h3 : 12 + i - 4 - 8 = i := by omega
  rw [if_neg h1, if_neg h2, h3]
  simp [hi]

@[simp] theorem reqCol_reqWord (op : Nibble) (b row col : Byte) : reqCol (reqWord op b row col) = col := by
  unfold reqCol reqWord
  ext i hi
  rw [BitVec.getElem_extractLsb', BitVec.getLsbD_append, BitVec.getLsbD_append, BitVec.getLsbD_append]
  have h1 : ¬ (20 + i < 4) := by omega
  have h2 : ¬ (20 + i - 4 < 8) := by omega
  have h3 : ¬ (20 + i - 4 - 8 < 8) := by omega
  have h4 : 20 + i - 4 - 8 - 8 = i := by omega
  rw [if_neg h1, if_neg h2, if_neg h3, h4, BitVec.getLsbD_eq_getElem hi]

end Sys2Proof

namespace Sys2Proof.Machine

@[simp] theorem decodeItem_uCfgOut (c : Config) : decodeItem c uCfgOut = .ok .cfgOut := by
  simp [decodeItem, uCfgOut, decodeUop]

@[simp] theorem decodeItem_uSetRs (c : Config) (v : Bool) : decodeItem c (uSetRs v) = .ok (.setRs v) := by
  simp [decodeItem, uSetRs, decodeUop]

@[simp] theorem decodeItem_uSetE (c : Config) (v : Bool) : decodeItem c (uSetE v) = .ok (.setE v) := by
  simp [decodeItem, uSetE, decodeUop]

@[simp] theorem decodeItem_uWriteD (c : Config) (n : Nibble) : decodeItem c (uWriteD n) = .ok (.writeD n) := by
  simp [decodeItem, uWriteD, decodeUop]

@[simp] theorem decodeItem_uDelay (c : Config) (n : Nat) : decodeItem c (uDelay n) = .ok (.delay (BitVec.ofNat 24 n)) := by
  simp [decodeItem, uDelay, decodeUop]

@[simp] theorem decodeItem_uFault (c : Config) (r : BitVec 24) : decodeItem c (uFault r) = .ok (.fault r) := by
  simp [decodeItem, uFault, decodeUop]

/-- A wait that fits one DELAY is one DELAY (R72). -/
theorem delays_fit {n : Nat} (h : n ≤ delayMax) : delays n = [uDelay n] := by
  have hk : (n - 1) / delayMax = 0 := Nat.div_eq_of_lt (by unfold delayMax at *; omega)
  simp [delays, hk]

end Sys2Proof.Machine
end

