-- ==== Sys2Proof/Laws/Memory.lean ====
section
/-! SUPPORT. The laws of cell lists: a read after a write, and the canonical form kept by every operation. -/

namespace Sys2Proof.Machine

/-- A read after a write: the byte written, at that address only. -/
@[simp] theorem Cells.read_write (m : List Host.Cell) (a b : Nat) (v : Byte) :
    Cells.read (Cells.write m a v) b = if b = a then some v else Cells.read m b := by
  induction m with
  | nil => simp [Cells.write, Cells.read, eq_comm]
  | cons c m ih =>
    obtain ⟨k, x⟩ := c
    simp only [Cells.write]
    split
    · simp [Cells.read, eq_comm]
    · split
      · subst_vars
        simp only [Cells.read]
        grind
      · simp only [Cells.read, ih]
        grind

/-- A read after an erase. -/
@[simp] theorem Cells.read_erase (m : List Host.Cell) (a b : Nat) :
    Cells.read (Cells.erase m a) b = if b = a then none else Cells.read m b := by
  induction m with
  | nil => simp [Cells.erase, Cells.read]
  | cons c m ih =>
    obtain ⟨k, x⟩ := c
    simp only [Cells.erase]
    split
    · rw [ih]
      simp only [Cells.read]
      grind
    · simp only [Cells.read, ih]
      grind

/-- Every address listed after a write is the one written or was listed before. -/
theorem Cells.mem_write {m : List Host.Cell} {a : Nat} {v : Byte} {c : Host.Cell} (h : c ∈ Cells.write m a v) :
    c = (a, v) ∨ c ∈ m := by
  induction m with
  | nil => simpa [Cells.write] using h
  | cons d m ih =>
    obtain ⟨k, x⟩ := d
    simp only [Cells.write] at h
    split at h
    · simpa using h
    · split at h
      · rcases List.mem_cons.mp h with h | h
        · exact .inl h
        · exact .inr (List.mem_cons_of_mem _ h)
      · rcases List.mem_cons.mp h with h | h
        · exact .inr (h ▸ List.mem_cons_self ..)
        · exact (ih h).imp id (List.mem_cons_of_mem _)

/-- An erase only takes off. -/
theorem Cells.mem_erase {m : List Host.Cell} {a : Nat} {c : Host.Cell} (h : c ∈ Cells.erase m a) : c ∈ m := by
  induction m with
  | nil => simp [Cells.erase] at h
  | cons d m ih =>
    obtain ⟨k, x⟩ := d
    simp only [Cells.erase] at h
    split at h
    · exact List.mem_cons_of_mem _ (ih h)
    · rcases List.mem_cons.mp h with h | h
      · exact h ▸ List.mem_cons_self ..
      · exact List.mem_cons_of_mem _ (ih h)

/-- A write keeps the canonical form. -/
theorem Cells.write_keeps_wf {m : List Host.Cell} (h : Cells.wf m) (a : Nat) (v : Byte) : Cells.wf (Cells.write m a v) := by
  induction m with
  | nil => simp [Cells.write]
  | cons d m ih =>
    obtain ⟨k, x⟩ := d
    obtain ⟨hk, hm⟩ := List.pairwise_cons.mp h
    simp only [Cells.write]
    split
    · next hlt =>
      refine List.pairwise_cons.mpr ⟨fun c hc => ?_, h⟩
      rcases List.mem_cons.mp hc with hc | hc
      · subst hc; exact hlt
      · exact Nat.lt_trans hlt (hk c hc)
    · split
      · next he => subst he; exact List.pairwise_cons.mpr ⟨hk, hm⟩
      · refine List.pairwise_cons.mpr ⟨fun c hc => ?_, ih hm⟩
        rcases Cells.mem_write hc with hc | hc
        · subst hc; show k < a; omega
        · exact hk c hc

/-- An erase keeps the canonical form. -/
theorem Cells.erase_keeps_wf {m : List Host.Cell} (h : Cells.wf m) (a : Nat) : Cells.wf (Cells.erase m a) := by
  induction m with
  | nil => simp [Cells.erase]
  | cons d m ih =>
    obtain ⟨k, x⟩ := d
    obtain ⟨hk, hm⟩ := List.pairwise_cons.mp h
    simp only [Cells.erase]
    split
    · exact ih hm
    · exact List.pairwise_cons.mpr ⟨fun c hc => hk c (Cells.mem_erase hc), ih hm⟩

/-- Several writes keep the canonical form. -/
theorem Cells.writeAll_keeps_wf {m : List Host.Cell} (h : Cells.wf m) (cells : List Host.Cell) :
    Cells.wf (Cells.writeAll m cells) := by
  induction cells generalizing m with
  | nil => exact h
  | cons c cells ih => exact ih (Cells.write_keeps_wf h c.1 c.2)

/-- DDRAM filled by a clear is in canonical form. -/
theorem Cells.fill_wf (v : Byte) : Cells.wf (Cells.fill v) :=
  List.pairwise_map.mpr List.pairwise_lt_range

/-- A read of a register after a write. -/
@[simp] theorem Regs.read_write (m : List Host.Cell) (p q : PortRef) (v : Byte) :
    Regs.read (Regs.write m p v) q = if q = p then v else Regs.read m q := by
  unfold Regs.read Regs.write
  split <;> (first | rw [Cells.read_erase] | rw [Cells.read_write]) <;> split <;> simp_all

/-- A register write keeps the canonical form. -/
theorem Regs.write_keeps_wf {m : List Host.Cell} (h : Regs.wf m) (p : PortRef) (v : Byte) : Regs.wf (Regs.write m p v) := by
  unfold Regs.write
  split
  · exact ⟨Cells.erase_keeps_wf h.1 p, fun c hc => h.2 c (Cells.mem_erase hc)⟩
  · next hv =>
    refine ⟨Cells.write_keeps_wf h.1 p v, fun c hc => ?_⟩
    rcases Cells.mem_write hc with hc | hc
    · subst hc; exact hv
    · exact h.2 c hc

/-- Setting one bit keeps the canonical form. -/
theorem Regs.setLevel_keeps_wf {m : List Host.Cell} (h : Regs.wf m) (p : PortRef) (k : Fin 8) (v : Bool) :
    Regs.wf (Regs.setLevel m p k v) := Regs.write_keeps_wf h p _

/-- A masked write keeps the canonical form. -/
theorem Regs.maskWrite_keeps_wf {m : List Host.Cell} (h : Regs.wf m) (p : PortRef) (mask v : Byte) :
    Regs.wf (Regs.maskWrite m p mask v) := Regs.write_keeps_wf h p _

end Sys2Proof.Machine
end

