-- ==== Sys2Proof/Laws/State.lean ====
section
/-! SUPPORT. One lemma per field per update of State, so that no proof unfolds a record update; the views of the lines
follow from `ports`, `ddrs` and `cfg`. -/

namespace Sys2Proof.Machine

@[simp] theorem State.writePin_cfg (s : State) (p : PortRef) (k : Fin 8) (v : Bool) : (s.writePin p k v).cfg = s.cfg := rfl
@[simp] theorem State.writePin_ports (s : State) (p : PortRef) (k : Fin 8) (v : Bool) : (s.writePin p k v).ports = Regs.setLevel s.ports p k v := rfl
@[simp] theorem State.writePin_ddrs (s : State) (p : PortRef) (k : Fin 8) (v : Bool) : (s.writePin p k v).ddrs = s.ddrs := rfl
@[simp] theorem State.writePin_t (s : State) (p : PortRef) (k : Fin 8) (v : Bool) : (s.writePin p k v).t = s.t := rfl
@[simp] theorem State.writePin_cur (s : State) (p : PortRef) (k : Fin 8) (v : Bool) : (s.writePin p k v).cur = s.cur := rfl
@[simp] theorem State.writePin_uq (s : State) (p : PortRef) (k : Fin 8) (v : Bool) : (s.writePin p k v).uq = s.uq := rfl
@[simp] theorem State.writePin_upc (s : State) (p : PortRef) (k : Fin 8) (v : Bool) : (s.writePin p k v).upc = s.upc := rfl
@[simp] theorem State.writePin_trace (s : State) (p : PortRef) (k : Fin 8) (v : Bool) : (s.writePin p k v).trace = s.trace := rfl
@[simp] theorem State.writePin_fault (s : State) (p : PortRef) (k : Fin 8) (v : Bool) : (s.writePin p k v).fault = s.fault := rfl
@[simp] theorem State.writePin_refused (s : State) (p : PortRef) (k : Fin 8) (v : Bool) : (s.writePin p k v).refused = s.refused := rfl
@[simp] theorem State.writePin_initCount (s : State) (p : PortRef) (k : Fin 8) (v : Bool) : (s.writePin p k v).initCount = s.initCount := rfl
@[simp] theorem State.writePin_obs (s : State) (p : PortRef) (k : Fin 8) (v : Bool) : (s.writePin p k v).obs = s.obs := rfl
@[simp] theorem State.writePin_mem (s : State) (p : PortRef) (k : Fin 8) (v : Bool) : (s.writePin p k v).mem = s.mem := rfl
@[simp] theorem State.writePin_hostq (s : State) (p : PortRef) (k : Fin 8) (v : Bool) : (s.writePin p k v).hostq = s.hostq := rfl
@[simp] theorem State.writePin_draws (s : State) (p : PortRef) (k : Fin 8) (v : Bool) : (s.writePin p k v).draws = s.draws := rfl

@[simp] theorem State.maskWrite_cfg (s : State) (p : PortRef) (m v : Byte) : (s.maskWrite p m v).cfg = s.cfg := rfl
@[simp] theorem State.maskWrite_ports (s : State) (p : PortRef) (m v : Byte) : (s.maskWrite p m v).ports = Regs.maskWrite s.ports p m v := rfl
@[simp] theorem State.maskWrite_ddrs (s : State) (p : PortRef) (m v : Byte) : (s.maskWrite p m v).ddrs = s.ddrs := rfl
@[simp] theorem State.maskWrite_t (s : State) (p : PortRef) (m v : Byte) : (s.maskWrite p m v).t = s.t := rfl
@[simp] theorem State.maskWrite_cur (s : State) (p : PortRef) (m v : Byte) : (s.maskWrite p m v).cur = s.cur := rfl
@[simp] theorem State.maskWrite_uq (s : State) (p : PortRef) (m v : Byte) : (s.maskWrite p m v).uq = s.uq := rfl
@[simp] theorem State.maskWrite_upc (s : State) (p : PortRef) (m v : Byte) : (s.maskWrite p m v).upc = s.upc := rfl
@[simp] theorem State.maskWrite_trace (s : State) (p : PortRef) (m v : Byte) : (s.maskWrite p m v).trace = s.trace := rfl
@[simp] theorem State.maskWrite_fault (s : State) (p : PortRef) (m v : Byte) : (s.maskWrite p m v).fault = s.fault := rfl
@[simp] theorem State.maskWrite_refused (s : State) (p : PortRef) (m v : Byte) : (s.maskWrite p m v).refused = s.refused := rfl
@[simp] theorem State.maskWrite_initCount (s : State) (p : PortRef) (m v : Byte) : (s.maskWrite p m v).initCount = s.initCount := rfl
@[simp] theorem State.maskWrite_obs (s : State) (p : PortRef) (m v : Byte) : (s.maskWrite p m v).obs = s.obs := rfl
@[simp] theorem State.maskWrite_mem (s : State) (p : PortRef) (m v : Byte) : (s.maskWrite p m v).mem = s.mem := rfl
@[simp] theorem State.maskWrite_hostq (s : State) (p : PortRef) (m v : Byte) : (s.maskWrite p m v).hostq = s.hostq := rfl
@[simp] theorem State.maskWrite_draws (s : State) (p : PortRef) (m v : Byte) : (s.maskWrite p m v).draws = s.draws := rfl

@[simp] theorem State.configureAsOutput_cfg (s : State) (p : PortRef) (k : Fin 8) : (s.configureAsOutput p k).cfg = s.cfg := rfl
@[simp] theorem State.configureAsOutput_ports (s : State) (p : PortRef) (k : Fin 8) : (s.configureAsOutput p k).ports = s.ports := rfl
@[simp] theorem State.configureAsOutput_ddrs (s : State) (p : PortRef) (k : Fin 8) : (s.configureAsOutput p k).ddrs = Regs.setLevel s.ddrs p k true := rfl
@[simp] theorem State.configureAsOutput_t (s : State) (p : PortRef) (k : Fin 8) : (s.configureAsOutput p k).t = s.t := rfl
@[simp] theorem State.configureAsOutput_cur (s : State) (p : PortRef) (k : Fin 8) : (s.configureAsOutput p k).cur = s.cur := rfl
@[simp] theorem State.configureAsOutput_uq (s : State) (p : PortRef) (k : Fin 8) : (s.configureAsOutput p k).uq = s.uq := rfl
@[simp] theorem State.configureAsOutput_upc (s : State) (p : PortRef) (k : Fin 8) : (s.configureAsOutput p k).upc = s.upc := rfl
@[simp] theorem State.configureAsOutput_trace (s : State) (p : PortRef) (k : Fin 8) : (s.configureAsOutput p k).trace = s.trace := rfl
@[simp] theorem State.configureAsOutput_fault (s : State) (p : PortRef) (k : Fin 8) : (s.configureAsOutput p k).fault = s.fault := rfl
@[simp] theorem State.configureAsOutput_refused (s : State) (p : PortRef) (k : Fin 8) : (s.configureAsOutput p k).refused = s.refused := rfl
@[simp] theorem State.configureAsOutput_initCount (s : State) (p : PortRef) (k : Fin 8) : (s.configureAsOutput p k).initCount = s.initCount := rfl
@[simp] theorem State.configureAsOutput_obs (s : State) (p : PortRef) (k : Fin 8) : (s.configureAsOutput p k).obs = s.obs := rfl
@[simp] theorem State.configureAsOutput_mem (s : State) (p : PortRef) (k : Fin 8) : (s.configureAsOutput p k).mem = s.mem := rfl
@[simp] theorem State.configureAsOutput_hostq (s : State) (p : PortRef) (k : Fin 8) : (s.configureAsOutput p k).hostq = s.hostq := rfl
@[simp] theorem State.configureAsOutput_draws (s : State) (p : PortRef) (k : Fin 8) : (s.configureAsOutput p k).draws = s.draws := rfl

@[simp] theorem State.emit_cfg (s : State) (e : Event) : (s.emit e).cfg = s.cfg := rfl
@[simp] theorem State.emit_ports (s : State) (e : Event) : (s.emit e).ports = s.ports := rfl
@[simp] theorem State.emit_ddrs (s : State) (e : Event) : (s.emit e).ddrs = s.ddrs := rfl
@[simp] theorem State.emit_t (s : State) (e : Event) : (s.emit e).t = s.t := rfl
@[simp] theorem State.emit_cur (s : State) (e : Event) : (s.emit e).cur = s.cur := rfl
@[simp] theorem State.emit_uq (s : State) (e : Event) : (s.emit e).uq = s.uq := rfl
@[simp] theorem State.emit_upc (s : State) (e : Event) : (s.emit e).upc = s.upc := rfl
@[simp] theorem State.emit_trace (s : State) (e : Event) : (s.emit e).trace = s.trace ++ [e] := rfl
@[simp] theorem State.emit_fault (s : State) (e : Event) : (s.emit e).fault = s.fault := rfl
@[simp] theorem State.emit_refused (s : State) (e : Event) : (s.emit e).refused = s.refused := rfl
@[simp] theorem State.emit_initCount (s : State) (e : Event) : (s.emit e).initCount = s.initCount := rfl
@[simp] theorem State.emit_obs (s : State) (e : Event) : (s.emit e).obs = s.obs := rfl
@[simp] theorem State.emit_mem (s : State) (e : Event) : (s.emit e).mem = s.mem := rfl
@[simp] theorem State.emit_hostq (s : State) (e : Event) : (s.emit e).hostq = s.hostq := rfl
@[simp] theorem State.emit_draws (s : State) (e : Event) : (s.emit e).draws = s.draws := rfl

@[simp] theorem State.drawTime_cfg (s : State) : (s.drawTime).cfg = s.cfg := rfl
@[simp] theorem State.drawTime_ports (s : State) : (s.drawTime).ports = s.ports := rfl
@[simp] theorem State.drawTime_ddrs (s : State) : (s.drawTime).ddrs = s.ddrs := rfl
@[simp] theorem State.drawTime_t (s : State) : (s.drawTime).t = s.t + s.cfg.delta s.draws := rfl
@[simp] theorem State.drawTime_cur (s : State) : (s.drawTime).cur = s.cur := rfl
@[simp] theorem State.drawTime_uq (s : State) : (s.drawTime).uq = s.uq := rfl
@[simp] theorem State.drawTime_upc (s : State) : (s.drawTime).upc = s.upc := rfl
@[simp] theorem State.drawTime_trace (s : State) : (s.drawTime).trace = s.trace := rfl
@[simp] theorem State.drawTime_fault (s : State) : (s.drawTime).fault = s.fault := rfl
@[simp] theorem State.drawTime_refused (s : State) : (s.drawTime).refused = s.refused := rfl
@[simp] theorem State.drawTime_initCount (s : State) : (s.drawTime).initCount = s.initCount := rfl
@[simp] theorem State.drawTime_obs (s : State) : (s.drawTime).obs = s.obs := rfl
@[simp] theorem State.drawTime_mem (s : State) : (s.drawTime).mem = s.mem := rfl
@[simp] theorem State.drawTime_hostq (s : State) : (s.drawTime).hostq = s.hostq := rfl
@[simp] theorem State.drawTime_draws (s : State) : (s.drawTime).draws = s.draws + 1 := rfl

@[simp] theorem State.wait_cfg (s : State) (n : Nat) : (s.wait n).cfg = s.cfg := rfl
@[simp] theorem State.wait_ports (s : State) (n : Nat) : (s.wait n).ports = s.ports := rfl
@[simp] theorem State.wait_ddrs (s : State) (n : Nat) : (s.wait n).ddrs = s.ddrs := rfl
@[simp] theorem State.wait_t (s : State) (n : Nat) : (s.wait n).t = s.t + n := rfl
@[simp] theorem State.wait_cur (s : State) (n : Nat) : (s.wait n).cur = s.cur := rfl
@[simp] theorem State.wait_uq (s : State) (n : Nat) : (s.wait n).uq = s.uq := rfl
@[simp] theorem State.wait_upc (s : State) (n : Nat) : (s.wait n).upc = s.upc := rfl
@[simp] theorem State.wait_trace (s : State) (n : Nat) : (s.wait n).trace = s.trace := rfl
@[simp] theorem State.wait_fault (s : State) (n : Nat) : (s.wait n).fault = s.fault := rfl
@[simp] theorem State.wait_refused (s : State) (n : Nat) : (s.wait n).refused = s.refused := rfl
@[simp] theorem State.wait_initCount (s : State) (n : Nat) : (s.wait n).initCount = s.initCount := rfl
@[simp] theorem State.wait_obs (s : State) (n : Nat) : (s.wait n).obs = s.obs := rfl
@[simp] theorem State.wait_mem (s : State) (n : Nat) : (s.wait n).mem = s.mem := rfl
@[simp] theorem State.wait_hostq (s : State) (n : Nat) : (s.wait n).hostq = s.hostq := rfl
@[simp] theorem State.wait_draws (s : State) (n : Nat) : (s.wait n).draws = s.draws := rfl

@[simp] theorem State.latch_cfg (s : State) : (s.latch).cfg = s.cfg := rfl
@[simp] theorem State.latch_ports (s : State) : (s.latch).ports = s.ports := rfl
@[simp] theorem State.latch_ddrs (s : State) : (s.latch).ddrs = s.ddrs := rfl
@[simp] theorem State.latch_t (s : State) : (s.latch).t = s.t := rfl
@[simp] theorem State.latch_cur (s : State) : (s.latch).cur = s.cur := rfl
@[simp] theorem State.latch_uq (s : State) : (s.latch).uq = s.uq := rfl
@[simp] theorem State.latch_upc (s : State) : (s.latch).upc = s.upc := rfl
@[simp] theorem State.latch_trace (s : State) : (s.latch).trace = s.trace ++ [.latch s.t s.sampleRs s.sampleD] := rfl
@[simp] theorem State.latch_fault (s : State) : (s.latch).fault = s.fault := rfl
@[simp] theorem State.latch_refused (s : State) : (s.latch).refused = s.refused := rfl
@[simp] theorem State.latch_initCount (s : State) : (s.latch).initCount = s.initCount := rfl
@[simp] theorem State.latch_obs (s : State) : (s.latch).obs = s.obs.latch s.cfg s.t s.sampleRs s.sampleD := rfl
@[simp] theorem State.latch_mem (s : State) : (s.latch).mem = s.mem := rfl
@[simp] theorem State.latch_hostq (s : State) : (s.latch).hostq = s.hostq := rfl
@[simp] theorem State.latch_draws (s : State) : (s.latch).draws = s.draws := rfl

@[simp] theorem State.push_cfg (s : State) (l : List Item) : (s.push l).cfg = s.cfg := rfl
@[simp] theorem State.push_ports (s : State) (l : List Item) : (s.push l).ports = s.ports := rfl
@[simp] theorem State.push_ddrs (s : State) (l : List Item) : (s.push l).ddrs = s.ddrs := rfl
@[simp] theorem State.push_t (s : State) (l : List Item) : (s.push l).t = s.t := rfl
@[simp] theorem State.push_cur (s : State) (l : List Item) : (s.push l).cur = s.cur := rfl
@[simp] theorem State.push_uq (s : State) (l : List Item) : (s.push l).uq = l ++ s.uq := rfl
@[simp] theorem State.push_upc (s : State) (l : List Item) : (s.push l).upc = s.upc := rfl
@[simp] theorem State.push_trace (s : State) (l : List Item) : (s.push l).trace = s.trace := rfl
@[simp] theorem State.push_fault (s : State) (l : List Item) : (s.push l).fault = s.fault := rfl
@[simp] theorem State.push_refused (s : State) (l : List Item) : (s.push l).refused = s.refused := rfl
@[simp] theorem State.push_initCount (s : State) (l : List Item) : (s.push l).initCount = s.initCount := rfl
@[simp] theorem State.push_obs (s : State) (l : List Item) : (s.push l).obs = s.obs := rfl
@[simp] theorem State.push_mem (s : State) (l : List Item) : (s.push l).mem = s.mem := rfl
@[simp] theorem State.push_hostq (s : State) (l : List Item) : (s.push l).hostq = s.hostq := rfl
@[simp] theorem State.push_draws (s : State) (l : List Item) : (s.push l).draws = s.draws := rfl

@[simp] theorem State.begin_cfg (s : State) (r : Instr) (l : List Item) : (s.begin r l).cfg = s.cfg := rfl
@[simp] theorem State.begin_ports (s : State) (r : Instr) (l : List Item) : (s.begin r l).ports = s.ports := rfl
@[simp] theorem State.begin_ddrs (s : State) (r : Instr) (l : List Item) : (s.begin r l).ddrs = s.ddrs := rfl
@[simp] theorem State.begin_t (s : State) (r : Instr) (l : List Item) : (s.begin r l).t = s.t := rfl
@[simp] theorem State.begin_cur (s : State) (r : Instr) (l : List Item) : (s.begin r l).cur = some r := rfl
@[simp] theorem State.begin_uq (s : State) (r : Instr) (l : List Item) : (s.begin r l).uq = l := rfl
@[simp] theorem State.begin_upc (s : State) (r : Instr) (l : List Item) : (s.begin r l).upc = 0 := rfl
@[simp] theorem State.begin_trace (s : State) (r : Instr) (l : List Item) : (s.begin r l).trace = s.trace ++ [.reqBegin s.t r] := rfl
@[simp] theorem State.begin_fault (s : State) (r : Instr) (l : List Item) : (s.begin r l).fault = s.fault := rfl
@[simp] theorem State.begin_refused (s : State) (r : Instr) (l : List Item) : (s.begin r l).refused = s.refused := rfl
@[simp] theorem State.begin_initCount (s : State) (r : Instr) (l : List Item) : (s.begin r l).initCount = s.initCount := rfl
@[simp] theorem State.begin_obs (s : State) (r : Instr) (l : List Item) : (s.begin r l).obs = s.obs := rfl
@[simp] theorem State.begin_mem (s : State) (r : Instr) (l : List Item) : (s.begin r l).mem = s.mem := rfl
@[simp] theorem State.begin_hostq (s : State) (r : Instr) (l : List Item) : (s.begin r l).hostq = s.hostq := rfl
@[simp] theorem State.begin_draws (s : State) (r : Instr) (l : List Item) : (s.begin r l).draws = s.draws := rfl

@[simp] theorem State.raiseFault_cfg (s : State) (r : BitVec 24) : (s.raiseFault r).cfg = s.cfg := rfl
@[simp] theorem State.raiseFault_ports (s : State) (r : BitVec 24) : (s.raiseFault r).ports = s.ports := rfl
@[simp] theorem State.raiseFault_ddrs (s : State) (r : BitVec 24) : (s.raiseFault r).ddrs = s.ddrs := rfl
@[simp] theorem State.raiseFault_t (s : State) (r : BitVec 24) : (s.raiseFault r).t = s.t := rfl
@[simp] theorem State.raiseFault_cur (s : State) (r : BitVec 24) : (s.raiseFault r).cur = s.cur := rfl
@[simp] theorem State.raiseFault_uq (s : State) (r : BitVec 24) : (s.raiseFault r).uq = [] := rfl
@[simp] theorem State.raiseFault_upc (s : State) (r : BitVec 24) : (s.raiseFault r).upc = s.upc := rfl
@[simp] theorem State.raiseFault_trace (s : State) (r : BitVec 24) : (s.raiseFault r).trace = s.trace ++ [.fault s.t r] := rfl
@[simp] theorem State.raiseFault_fault (s : State) (r : BitVec 24) : (s.raiseFault r).fault = some r := rfl
@[simp] theorem State.raiseFault_refused (s : State) (r : BitVec 24) : (s.raiseFault r).refused = s.refused := rfl
@[simp] theorem State.raiseFault_initCount (s : State) (r : BitVec 24) : (s.raiseFault r).initCount = s.initCount := rfl
@[simp] theorem State.raiseFault_obs (s : State) (r : BitVec 24) : (s.raiseFault r).obs = s.obs := rfl
@[simp] theorem State.raiseFault_mem (s : State) (r : BitVec 24) : (s.raiseFault r).mem = s.mem := rfl
@[simp] theorem State.raiseFault_hostq (s : State) (r : BitVec 24) : (s.raiseFault r).hostq = s.hostq := rfl
@[simp] theorem State.raiseFault_draws (s : State) (r : BitVec 24) : (s.raiseFault r).draws = s.draws := rfl

@[simp] theorem State.refuse_cfg (s : State) (m : RefuseMark) : (s.refuse m).cfg = s.cfg := rfl
@[simp] theorem State.refuse_ports (s : State) (m : RefuseMark) : (s.refuse m).ports = s.ports := rfl
@[simp] theorem State.refuse_ddrs (s : State) (m : RefuseMark) : (s.refuse m).ddrs = s.ddrs := rfl
@[simp] theorem State.refuse_t (s : State) (m : RefuseMark) : (s.refuse m).t = s.t := rfl
@[simp] theorem State.refuse_cur (s : State) (m : RefuseMark) : (s.refuse m).cur = s.cur := rfl
@[simp] theorem State.refuse_uq (s : State) (m : RefuseMark) : (s.refuse m).uq = s.uq := rfl
@[simp] theorem State.refuse_upc (s : State) (m : RefuseMark) : (s.refuse m).upc = s.upc := rfl
@[simp] theorem State.refuse_trace (s : State) (m : RefuseMark) : (s.refuse m).trace = s.trace := rfl
@[simp] theorem State.refuse_fault (s : State) (m : RefuseMark) : (s.refuse m).fault = s.fault := rfl
@[simp] theorem State.refuse_refused (s : State) (m : RefuseMark) : (s.refuse m).refused = some m := rfl
@[simp] theorem State.refuse_initCount (s : State) (m : RefuseMark) : (s.refuse m).initCount = s.initCount := rfl
@[simp] theorem State.refuse_obs (s : State) (m : RefuseMark) : (s.refuse m).obs = s.obs := rfl
@[simp] theorem State.refuse_mem (s : State) (m : RefuseMark) : (s.refuse m).mem = s.mem := rfl
@[simp] theorem State.refuse_hostq (s : State) (m : RefuseMark) : (s.refuse m).hostq = s.hostq := rfl
@[simp] theorem State.refuse_draws (s : State) (m : RefuseMark) : (s.refuse m).draws = s.draws := rfl

@[simp] theorem State.popItem_cfg (s : State) (it : Item) (rest : List Item) : (s.popItem it rest).cfg = s.cfg := rfl
@[simp] theorem State.popItem_ports (s : State) (it : Item) (rest : List Item) : (s.popItem it rest).ports = s.ports := rfl
@[simp] theorem State.popItem_ddrs (s : State) (it : Item) (rest : List Item) : (s.popItem it rest).ddrs = s.ddrs := rfl
@[simp] theorem State.popItem_t (s : State) (it : Item) (rest : List Item) : (s.popItem it rest).t = s.t := rfl
@[simp] theorem State.popItem_cur (s : State) (it : Item) (rest : List Item) : (s.popItem it rest).cur = s.cur := rfl
@[simp] theorem State.popItem_uq (s : State) (it : Item) (rest : List Item) : (s.popItem it rest).uq = rest := rfl
@[simp] theorem State.popItem_upc (s : State) (it : Item) (rest : List Item) : (s.popItem it rest).upc = s.upc + upcStep it := rfl
@[simp] theorem State.popItem_trace (s : State) (it : Item) (rest : List Item) : (s.popItem it rest).trace = s.trace := rfl
@[simp] theorem State.popItem_fault (s : State) (it : Item) (rest : List Item) : (s.popItem it rest).fault = s.fault := rfl
@[simp] theorem State.popItem_refused (s : State) (it : Item) (rest : List Item) : (s.popItem it rest).refused = s.refused := rfl
@[simp] theorem State.popItem_initCount (s : State) (it : Item) (rest : List Item) : (s.popItem it rest).initCount = s.initCount := rfl
@[simp] theorem State.popItem_obs (s : State) (it : Item) (rest : List Item) : (s.popItem it rest).obs = s.obs := rfl
@[simp] theorem State.popItem_mem (s : State) (it : Item) (rest : List Item) : (s.popItem it rest).mem = s.mem := rfl
@[simp] theorem State.popItem_hostq (s : State) (it : Item) (rest : List Item) : (s.popItem it rest).hostq = s.hostq := rfl
@[simp] theorem State.popItem_draws (s : State) (it : Item) (rest : List Item) : (s.popItem it rest).draws = s.draws := rfl

@[simp] theorem State.hostArrive_cfg (s : State) (h : HostReq) (hs : List HostReq) : (s.hostArrive h hs).cfg = s.cfg := rfl
@[simp] theorem State.hostArrive_ports (s : State) (h : HostReq) (hs : List HostReq) : (s.hostArrive h hs).ports = s.ports := rfl
@[simp] theorem State.hostArrive_ddrs (s : State) (h : HostReq) (hs : List HostReq) : (s.hostArrive h hs).ddrs = s.ddrs := rfl
@[simp] theorem State.hostArrive_t (s : State) (h : HostReq) (hs : List HostReq) : (s.hostArrive h hs).t = s.t + h.think := rfl
@[simp] theorem State.hostArrive_cur (s : State) (h : HostReq) (hs : List HostReq) : (s.hostArrive h hs).cur = s.cur := rfl
@[simp] theorem State.hostArrive_uq (s : State) (h : HostReq) (hs : List HostReq) : (s.hostArrive h hs).uq = s.uq := rfl
@[simp] theorem State.hostArrive_upc (s : State) (h : HostReq) (hs : List HostReq) : (s.hostArrive h hs).upc = s.upc := rfl
@[simp] theorem State.hostArrive_trace (s : State) (h : HostReq) (hs : List HostReq) : (s.hostArrive h hs).trace = s.trace := rfl
@[simp] theorem State.hostArrive_fault (s : State) (h : HostReq) (hs : List HostReq) : (s.hostArrive h hs).fault = s.fault := rfl
@[simp] theorem State.hostArrive_refused (s : State) (h : HostReq) (hs : List HostReq) : (s.hostArrive h hs).refused = s.refused := rfl
@[simp] theorem State.hostArrive_initCount (s : State) (h : HostReq) (hs : List HostReq) : (s.hostArrive h hs).initCount = s.initCount := rfl
@[simp] theorem State.hostArrive_obs (s : State) (h : HostReq) (hs : List HostReq) : (s.hostArrive h hs).obs = s.obs := rfl
@[simp] theorem State.hostArrive_mem (s : State) (h : HostReq) (hs : List HostReq) : (s.hostArrive h hs).mem = Cells.writeAll s.mem h.stores := rfl
@[simp] theorem State.hostArrive_hostq (s : State) (h : HostReq) (hs : List HostReq) : (s.hostArrive h hs).hostq = hs := rfl
@[simp] theorem State.hostArrive_draws (s : State) (h : HostReq) (hs : List HostReq) : (s.hostArrive h hs).draws = s.draws := rfl

/-- What the completion check can do: complete the current request, or leave the state as it is (R34). -/
theorem State.finish_cases (s : State) :
    (∃ r, s.uq = [] ∧ s.fault = none ∧ s.cur = some r ∧
        s.finish = { s with trace := s.trace ++ [.reqEnd s.t r], cur := none }) ∨
      s.finish = s ∧ ¬ (s.uq = [] ∧ s.fault = none ∧ s.cur ≠ none) := by
  unfold State.finish
  split
  · next h =>
    split
    · next r hr => exact .inl ⟨r, h.1, h.2, hr, rfl⟩
    · next hr => exact .inr ⟨rfl, fun hc => hc.2.2 hr⟩
  · next h => exact .inr ⟨rfl, fun hc => h ⟨hc.1, hc.2.1⟩⟩

@[simp] theorem State.finish_cfg (s : State) : s.finish.cfg = s.cfg := by
  rcases s.finish_cases with ⟨_, _, _, _, h⟩ | ⟨h, _⟩ <;> rw [h]
@[simp] theorem State.finish_ports (s : State) : s.finish.ports = s.ports := by
  rcases s.finish_cases with ⟨_, _, _, _, h⟩ | ⟨h, _⟩ <;> rw [h]
@[simp] theorem State.finish_ddrs (s : State) : s.finish.ddrs = s.ddrs := by
  rcases s.finish_cases with ⟨_, _, _, _, h⟩ | ⟨h, _⟩ <;> rw [h]
@[simp] theorem State.finish_t (s : State) : s.finish.t = s.t := by
  rcases s.finish_cases with ⟨_, _, _, _, h⟩ | ⟨h, _⟩ <;> rw [h]
@[simp] theorem State.finish_uq (s : State) : s.finish.uq = s.uq := by
  rcases s.finish_cases with ⟨_, _, _, _, h⟩ | ⟨h, _⟩ <;> rw [h]
@[simp] theorem State.finish_upc (s : State) : s.finish.upc = s.upc := by
  rcases s.finish_cases with ⟨_, _, _, _, h⟩ | ⟨h, _⟩ <;> rw [h]
@[simp] theorem State.finish_fault (s : State) : s.finish.fault = s.fault := by
  rcases s.finish_cases with ⟨_, _, _, _, h⟩ | ⟨h, _⟩ <;> rw [h]
@[simp] theorem State.finish_refused (s : State) : s.finish.refused = s.refused := by
  rcases s.finish_cases with ⟨_, _, _, _, h⟩ | ⟨h, _⟩ <;> rw [h]
@[simp] theorem State.finish_initCount (s : State) : s.finish.initCount = s.initCount := by
  rcases s.finish_cases with ⟨_, _, _, _, h⟩ | ⟨h, _⟩ <;> rw [h]
@[simp] theorem State.finish_obs (s : State) : s.finish.obs = s.obs := by
  rcases s.finish_cases with ⟨_, _, _, _, h⟩ | ⟨h, _⟩ <;> rw [h]
@[simp] theorem State.finish_mem (s : State) : s.finish.mem = s.mem := by
  rcases s.finish_cases with ⟨_, _, _, _, h⟩ | ⟨h, _⟩ <;> rw [h]
@[simp] theorem State.finish_hostq (s : State) : s.finish.hostq = s.hostq := by
  rcases s.finish_cases with ⟨_, _, _, _, h⟩ | ⟨h, _⟩ <;> rw [h]
@[simp] theorem State.finish_draws (s : State) : s.finish.draws = s.draws := by
  rcases s.finish_cases with ⟨_, _, _, _, h⟩ | ⟨h, _⟩ <;> rw [h]

@[simp] theorem State.accept_cfg (s : State) (r : Instr) (l : List Item) : (s.accept r l).cfg = s.cfg := by
  simp [State.accept]
@[simp] theorem State.accept_ports (s : State) (r : Instr) (l : List Item) : (s.accept r l).ports = s.ports := by
  simp [State.accept]
@[simp] theorem State.accept_ddrs (s : State) (r : Instr) (l : List Item) : (s.accept r l).ddrs = s.ddrs := by
  simp [State.accept]
@[simp] theorem State.accept_t (s : State) (r : Instr) (l : List Item) : (s.accept r l).t = s.t := by
  simp [State.accept]
@[simp] theorem State.accept_uq (s : State) (r : Instr) (l : List Item) : (s.accept r l).uq = l := by
  simp [State.accept]
@[simp] theorem State.accept_upc (s : State) (r : Instr) (l : List Item) : (s.accept r l).upc = 0 := by
  simp [State.accept]
@[simp] theorem State.accept_fault (s : State) (r : Instr) (l : List Item) : (s.accept r l).fault = s.fault := by
  simp [State.accept]
@[simp] theorem State.accept_refused (s : State) (r : Instr) (l : List Item) : (s.accept r l).refused = s.refused := by
  simp [State.accept]
@[simp] theorem State.accept_initCount (s : State) (r : Instr) (l : List Item) : (s.accept r l).initCount = s.initCount := by
  simp [State.accept]
@[simp] theorem State.accept_obs (s : State) (r : Instr) (l : List Item) : (s.accept r l).obs = s.obs := by
  simp [State.accept]
@[simp] theorem State.accept_mem (s : State) (r : Instr) (l : List Item) : (s.accept r l).mem = s.mem := by
  simp [State.accept]
@[simp] theorem State.accept_hostq (s : State) (r : Instr) (l : List Item) : (s.accept r l).hostq = s.hostq := by
  simp [State.accept]
@[simp] theorem State.accept_draws (s : State) (r : Instr) (l : List Item) : (s.accept r l).draws = s.draws := by
  simp [State.accept]

/-- Acceptance with something to do: the request is current (R34). -/
theorem State.accept_cons (s : State) (r : Instr) (it : Item) (l : List Item) :
    s.accept r (it :: l) = s.begin r (it :: l) := by
  simp [State.accept, State.finish]

/-- Acceptance of a request that expands to nothing: Begin and End at the same time (R34, R96). -/
theorem State.accept_nil (s : State) (r : Instr) (h : s.fault = none) :
    s.accept r [] =
      { s with trace := s.trace ++ [.reqBegin s.t r, .reqEnd s.t r], cur := none, upc := 0, uq := [] } := by
  simp [State.accept, State.finish, State.begin, h]

end Sys2Proof.Machine
end

