-- ==== Sys2Proof/Laws/Ops.lean ====
section
/-! SUPPORT. One lemma for each shared operation that says once everything it can do, and the inversion of step. -/

namespace Sys2Proof.Machine

/-- A draw keeps DELTA_MAX (R81). -/
theorem Config.delta_le (c : Config) (k d : Nat) (h : c.deltaMax = some d) : c.delta k ≤ d := by
  unfold Config.delta
  rw [h]
  cases d with
  | zero => exact Nat.le_refl 0
  | succ d => exact Nat.le_of_lt_succ (Nat.mod_lt _ (Nat.succ_pos _))

/-- Bit j of the byte with only bit k set. -/
theorem getLsbD_bitMask (k j : Fin 8) : (bitMask k).getLsbD j.val = decide (j = k) := by
  revert k j; decide

/-- What setting one bit of one register does to every bit of the space (R39). -/
theorem Regs.bit_setLevel (m : List Host.Cell) (p q : PortRef) (k j : Fin 8) (v : Bool) :
    Regs.bit (Regs.setLevel m p k v) q j = if q = p ∧ j = k then v else Regs.bit m q j := by
  unfold Regs.bit Regs.setLevel
  rw [Regs.read_write]
  by_cases hq : q = p
  · subst hq
    have hm := getLsbD_bitMask k j
    by_cases hj : j = k
    · subst hj
      cases v <;> simp_all
    · cases v <;> simp_all
  · simp [hq]

/-- What a masked write does to every bit of the space (R39). -/
theorem Regs.bit_maskWrite (m : List Host.Cell) (p q : PortRef) (mask v : Byte) (j : Fin 8) :
    Regs.bit (Regs.maskWrite m p mask v) q j =
      if q = p ∧ mask.getLsbD j.val = true then v.getLsbD j.val else Regs.bit m q j := by
  unfold Regs.bit Regs.maskWrite
  rw [Regs.read_write]
  by_cases hq : q = p
  · subst hq
    by_cases hj : mask.getLsbD j.val = true <;> simp_all
  · simp [hq]

/-- An object has its size. -/
@[simp] theorem Cells.length_readObject (m : List Host.Cell) (a n : Nat) : (Cells.readObject m a n).length = n := by
  induction n generalizing a with
  | zero => rfl
  | succ n ih => simp [Cells.readObject, ih]

/-- Reading an object gives its bytes in increasing address order (R41). -/
theorem Cells.getElem?_readObject (m : List Host.Cell) (a n i : Nat) :
    (Cells.readObject m a n)[i]? = if i < n then some (callerByte m (a + i)) else none := by
  induction n generalizing a i with
  | zero => simp [Cells.readObject]
  | succ n ih =>
    cases i with
    | zero => simp [Cells.readObject]
    | succ i =>
      have h : a + 1 + i = a + (i + 1) := by omega
      simp [Cells.readObject, ih, h]

/-- Every instruction answers a next state. -/
theorem exec_next (i : Instr) (s : State) : ∃ t, exec i s = .next t := by
  cases i <;> exact ⟨_, rfl⟩

/-- What no instruction changes: the parameters, the caller's memory, the host's requests and the refusal mark. -/
theorem exec_keeps {i : Instr} {s t : State} (h : exec i s = .next t) :
    t.cfg = s.cfg ∧ t.mem = s.mem ∧ t.hostq = s.hostq ∧ t.refused = s.refused := by
  cases i with
  | setE v =>
    simp only [exec, execSetE] at h
    cases h
    split <;> simp
  | _ =>
    simp only [exec, execLcdInit, execLcdCommand, execLcdPrintChar, execLcdPrintCharAt, execLcdPrintString,
      execLcdPrintStringAt, execStrobeEnable, execSendNibble, execSetCursor, execCfgOut, execSetRs, execWriteD, execDelay,
      execFault, execCmdClear, execCmdHome, execCmdFuncset, execInitDispctrl, execInitEntry, execSetDdramAddr] at h
    cases h
    simp

/-- What a step that answers a next state is: the engine executing the head of the pending list, the host's request
accepted, the host's request refused, or the wait of an idle block (R34). -/
theorem step_cases {s t : State} (h : step s = .next t) :
    s.safe ∧
      ((∃ it rest i u, s.uq = it :: rest ∧ decodeItem s.cfg it = .ok i ∧ exec i (s.popItem it rest) = .next u ∧
          t = u.finish) ∨
        (∃ q qs i, s.idle ∧ s.hostq = q :: qs ∧
          decodeReq { word := q.word, s := (s.hostArrive q qs).listOperand q } = .ok i ∧ exec i (s.hostArrive q qs) = .next t) ∨
        (∃ q qs e, s.idle ∧ s.hostq = q :: qs ∧
          decodeReq { word := q.word, s := (s.hostArrive q qs).listOperand q } = .error e ∧ t = (s.hostArrive q qs).refuse .badRequest) ∨
        (s.idle ∧ s.hostq = [] ∧ t = s)) := by
  unfold step at h
  split at h
  · cases h
  · cases h
  · next hf hr =>
    refine ⟨⟨hf, hr⟩, ?_⟩
    split at h
    · next it rest huq =>
      unfold engineMove at h
      split at h
      · cases h
      · next i hd =>
        split at h
        · next u hu => cases h; exact .inl ⟨it, rest, i, u, huq, hd, hu, rfl⟩
        · cases h
        · cases h
    · cases h
    · next hu hc hq => cases h; exact .inr (.inr (.inr ⟨⟨hu, hc⟩, hq, rfl⟩))
    · next q qs hu hc hq =>
      unfold hostMove at h
      split at h
      · next e he => cases h; exact .inr (.inr (.inl ⟨q, qs, e, ⟨hu, hc⟩, hq, he, rfl⟩))
      · next i hi => exact .inr (.inl ⟨q, qs, i, ⟨hu, hc⟩, hq, hi, h⟩)

/-- What a latch can do to the observer (R58): lose everything, be read as a blind reset after losing everything, or be
read by its mode. -/
theorem Observer.latch_cases (c : Config) (o : Observer) (t : Nat) (rs : Option Bool) (n : Option Nibble) :
    o.latch c t rs n = o.lose ∨
      ∃ r x, rs = some r ∧ n = some x ∧
        (o.latch c t rs n = o.lose.latchUnknown c t r x ∨ o.latch c t rs n = o.latchChecked c t r x) := by
  cases rs with
  | none => exact .inl rfl
  | some r =>
    cases n with
    | none => exact .inl rfl
    | some x =>
      refine .inr ⟨r, x, rfl, rfl, ?_⟩
      show o.latchDriven c t r x = _ ∨ o.latchDriven c t r x = _
      unfold Observer.latchDriven
      split
      · exact .inl rfl
      · exact .inr rfl

end Sys2Proof.Machine
end

