-- ==== Sys2Proof/Laws/PerInstr.lean ====
section
/-! SUPPORT. Statements made once per instruction. TableRow: the first word of an instruction's encoding agrees with
its row of spec/opcode_table.json, on the bits the row fixes. The rows are written here from the table. -/

namespace Sys2Proof.Laws.TableRow

/-- The number whose bits the table's match and mask speak of: a REQ or UOP word, a MACRO code, a command byte. -/
def tableNumber (x : Code) : Nat :=
  match x with
  | .req r => r.word.toNat
  | .item (.uop w) => w.toNat
  | .item (.macroOp code _ _ _) => code.toNat
  | .item (.cmd b) => b.toNat

/-- The row's mask and match (spec/opcode_table.json). -/
def row (i : Instr) : Nat × Nat :=
  match i with
  | .lcdInit => (0xF, 0x0)
  | .lcdCommand _ => (0xF, 0x1)
  | .lcdPrintChar _ => (0xF, 0x2)
  | .lcdPrintCharAt _ _ _ => (0xF, 0x3)
  | .lcdPrintString _ => (0xF, 0x4)
  | .lcdPrintStringAt _ _ _ => (0xF, 0x5)
  | .strobeEnable => (0xF, 0x0)
  | .sendNibble _ => (0xF, 0x1)
  | .setCursor _ _ => (0xF, 0x2)
  | .cfgOut => (0x7, 0x0)
  | .setRs _ => (0x7, 0x1)
  | .setE _ => (0x7, 0x2)
  | .writeD _ => (0x7, 0x3)
  | .delay _ => (0x7, 0x4)
  | .fault _ => (0x7, 0x5)
  | .cmdClear => (0xFF, 0x01)
  | .cmdHome => (0xFF, 0x02)
  | .cmdFuncset => (0xFF, 0x28)
  | .initDispctrl => (0xFF, 0x0F)
  | .initEntry => (0xFF, 0x06)
  | .setDdramAddr _ => (0x80, 0x80)

/-- At the default parameters, the encoding carries the row's fixed bits. -/
def Statement (i : Instr) : Prop :=
  tableNumber (encode Config.default i) &&& (row i).1 = (row i).2

/-- The low four bits of a REQ word are its op. -/
theorem land_reqWord (op : Nibble) (b r c : Byte) : (reqWord op b r c).toNat &&& 0xF = op.toNat := by
  have h := congrArg BitVec.toNat (reqOp_reqWord op b r c)
  rw [reqOp, BitVec.extractLsb'_toNat, Nat.shiftRight_zero] at h
  exact (Nat.and_two_pow_sub_one_eq_mod _ 4).trans h

/-- The low three bits of a UOP word are its code. -/
theorem land_uopWord (code : BitVec 3) (v : Bool) (n : Nibble) (arg : BitVec 24) :
    (uopWord code v n arg).toNat &&& 0x7 = code.toNat := by
  have h := congrArg BitVec.toNat (uopCode_uopWord code v n arg)
  rw [uopCode, BitVec.extractLsb'_toNat, Nat.shiftRight_zero] at h
  exact (Nat.and_two_pow_sub_one_eq_mod _ 3).trans h

theorem lcdInit : Statement .lcdInit := land_reqWord 0x0 0 0 0
theorem lcdCommand (b : Byte) : Statement (.lcdCommand b) := land_reqWord 0x1 b 0 0
theorem lcdPrintChar (b : Byte) : Statement (.lcdPrintChar b) := land_reqWord 0x2 b 0 0
theorem lcdPrintCharAt (b r c : Byte) : Statement (.lcdPrintCharAt b r c) := land_reqWord 0x3 b r c
theorem lcdPrintString (s : List Byte) : Statement (.lcdPrintString s) := land_reqWord 0x4 0 0 0
theorem lcdPrintStringAt (s : List Byte) (r c : Byte) : Statement (.lcdPrintStringAt s r c) := land_reqWord 0x5 0 r c
theorem strobeEnable : Statement .strobeEnable := by unfold Statement; decide
theorem sendNibble (n : Nibble) : Statement (.sendNibble n) := by
  show (0x1 : Nibble).toNat &&& 0xF = 0x1; decide
theorem setCursor (r c : Byte) : Statement (.setCursor r c) := by
  show (0x2 : Nibble).toNat &&& 0xF = 0x2; decide
theorem cfgOut : Statement .cfgOut := land_uopWord 0 false 0 0
theorem setRs (v : Bool) : Statement (.setRs v) := land_uopWord 1 v 0 0
theorem setE (v : Bool) : Statement (.setE v) := land_uopWord 2 v 0 0
theorem writeD (n : Nibble) : Statement (.writeD n) := land_uopWord 3 false n 0
theorem delay (arg : BitVec 24) : Statement (.delay arg) := land_uopWord 4 false 0 arg
theorem fault (arg : BitVec 24) : Statement (.fault arg) := land_uopWord 5 false 0 arg
theorem cmdClear : Statement .cmdClear := by unfold Statement; decide
theorem cmdHome : Statement .cmdHome := by unfold Statement; decide
theorem cmdFuncset : Statement .cmdFuncset := by unfold Statement; decide
theorem initDispctrl : Statement .initDispctrl := by unfold Statement; decide
theorem initEntry : Statement .initEntry := by unfold Statement; decide
theorem setDdramAddr (addr : BitVec 7) : Statement (.setDdramAddr addr) := by
  unfold Statement; revert addr; decide

end Sys2Proof.Laws.TableRow
end

