-- ==== Sys2Proof/Machine/Spelling.lean ====
section
/-! DEFINITION. The two spellings of a request (R78) as lists of characters, and the aliases of R79. No step uses them. -/

namespace Sys2Proof.Machine

/-- A hexadecimal digit as the spec writes it. -/
def hexDigit (n : Nibble) : Char := "0123456789ABCDEF".toList.getD n.toNat '0'

/-- A byte as a literal 0x.. (R12). -/
def spellByte (b : Byte) : List Char := ['0', 'x', hexDigit (hiNibble b), hexDigit (loNibble b)]

/-- A row or column in decimal, as R78's examples have it. -/
def spellNumber (b : Byte) : List Char := Nat.toDigits 10 b.toNat

/-- A character literal denotes its ASCII code (R78). -/
def charByte (ch : Char) : Byte := BitVec.ofNat 8 ch.toNat

/-- The bytes a string literal denotes: one 0x00 after them in NUL_TERMINATED mode (R78). -/
def literalBytes (m : StringMode) (cs : List Char) : List Byte :=
  match m with
  | .nulTerminated => cs.map charByte ++ [0x00]
  | .lengthBounded => cs.map charByte

/-- A string operand as a literal, where some literal denotes it. -/
def spellString (m : StringMode) (s : List Byte) : Option (List Char) :=
  if literalBytes m ((payload m s).map (fun b => Char.ofNat b.toNat)) = s then
    some (['"'] ++ (payload m s).map (fun b => Char.ofNat b.toNat) ++ ['"'])
  else none

/-- The operands of a request in the order of R69, each spelled; none for what is no request or has no spelling. -/
def spellOperands (m : StringMode) (i : Instr) : Option (List (List Char)) :=
  match i with
  | .lcdInit => some []
  | .lcdCommand b => some [spellByte b]
  | .lcdPrintChar b => some [spellByte b]
  | .lcdPrintCharAt b row col => some [spellByte b, spellNumber row, spellNumber col]
  | .lcdPrintString s => (spellString m s).map (fun l => [l])
  | .lcdPrintStringAt s row col => (spellString m s).map (fun l => [l, spellNumber row, spellNumber col])
  | .strobeEnable => none
  | .sendNibble _ => none
  | .setCursor _ _ => none
  | .cfgOut => none
  | .setRs _ => none
  | .setE _ => none
  | .writeD _ => none
  | .delay _ => none
  | .fault _ => none
  | .cmdClear => none
  | .cmdHome => none
  | .cmdFuncset => none
  | .initDispctrl => none
  | .initEntry => none
  | .setDdramAddr _ => none

/-- Pieces separated by ", ". -/
def joinComma (l : List (List Char)) : List Char := (l.intersperse [',', ' ']).flatten

/-- The mnemonic of every row, as spec/opcode_table.json spells it (R69, R71, R72, R74). -/
def mnemonic (i : Instr) : String :=
  match i with
  | .lcdInit => "LCD_INIT"
  | .lcdCommand _ => "LCD_COMMAND"
  | .lcdPrintChar _ => "LCD_PRINT_CHAR"
  | .lcdPrintCharAt _ _ _ => "LCD_PRINT_CHAR_AT"
  | .lcdPrintString _ => "LCD_PRINT_STRING"
  | .lcdPrintStringAt _ _ _ => "LCD_PRINT_STRING_AT"
  | .strobeEnable => "STROBE_ENABLE"
  | .sendNibble _ => "SEND_NIBBLE"
  | .setCursor _ _ => "SET_CURSOR"
  | .cfgOut => "CFG_OUT"
  | .setRs _ => "SET_RS"
  | .setE _ => "SET_E"
  | .writeD _ => "WRITE_D"
  | .delay _ => "DELAY"
  | .fault _ => "FAULT"
  | .cmdClear => "CMD_CLEAR"
  | .cmdHome => "CMD_HOME"
  | .cmdFuncset => "CMD_FUNCSET"
  | .initDispctrl => "INIT_DISPCTRL"
  | .initEntry => "INIT_ENTRY"
  | .setDdramAddr _ => "SET_DDRAM_ADDR"

/-- The mnemonic form of a request: LCD_COMMAND 0x01 (R78). -/
def mnemonicForm (m : StringMode) (i : Instr) : Option (List Char) :=
  (spellOperands m i).map (fun ops =>
    if ops = [] then (mnemonic i).toList else (mnemonic i).toList ++ [' '] ++ joinComma ops)

/-- The call form of a request: lcd_command(h, 0x01) (R78). A request's public name is its mnemonic in lower case
(R69). -/
def callForm (m : StringMode) (i : Instr) : Option (List Char) :=
  (spellOperands m i).map (fun ops =>
    (mnemonic i).toList.map Char.toLower ++ ['('] ++ joinComma (['h'] :: ops) ++ [')'])

/-- send_command(h, b) (R79). -/
def aliasSendCommand (b : Byte) : Instr := .lcdCommand b
/-- send_char(h, b) (R79). -/
def aliasSendChar (b : Byte) : Instr := .lcdPrintChar b
/-- send_string(h, s) (R79). -/
def aliasSendString (s : List Byte) : Instr := .lcdPrintString s
/-- write_char_at(h, b, row, col) (R79). -/
def aliasWriteCharAt (b row col : Byte) : Instr := .lcdPrintCharAt b row col
/-- write_string_at(h, s, row, col) (R79). -/
def aliasWriteStringAt (s : List Byte) (row col : Byte) : Instr := .lcdPrintStringAt s row col
/-- lcd_command(h, DISPLAY_CLEAR) (R79). -/
def aliasDisplayClear (c : Config) : Instr := .lcdCommand c.cmdClear

end Sys2Proof.Machine
end

