-- ==== Sys2Proof/Tests/Slice0.lean ====
section
/-! SUPPORT. The model's own tests. Expected values are the spec's vectors (95_test_vectors.md), each named where it is
used; and for every statement with hypotheses a witness that they can be met. -/

namespace Sys2Proof.Tests

open Sys2Proof.Machine

/-! ## Small states -/

/-- The default parameters with every δ = 0, as the vectors assume. -/
def cfg0 : Config := { Config.default with deltaMax := some 0 }

/-- After a launch at those parameters, with a request to come. -/
def start (q : List HostReq) : State := { State.launch cfg0 with hostq := q }

/-- A request issued without think-time, its string object at address 0. -/
def ask (w : BitVec 28) (len : Nat) : HostReq := { think := 0, stores := [], word := w, addr := 0, len := len }

/-- The engine inside LCD_INIT with a micro-op word and more to come; `dirs` is the direction register. -/
def running (w : BitVec 32) (port dirs : Byte) (t : Nat) : State :=
  { start [] with uq := [.uop w, uDelay 0], cur := some .lcdInit, t := t
                  ports := Regs.write [] 0 port, ddrs := Regs.write [] 0 dirs }

/-- The next state of an outcome, if it is one. -/
def after (o : Host.Outcome State Fault Refusal) : Option State :=
  match o with
  | .next t => some t
  | .fault _ => none
  | .refused _ => none

/-- The outcome is the refusal given. -/
def isRefused (o : Host.Outcome State Fault Refusal) (r : Refusal) : Bool :=
  match o with
  | .next _ => false
  | .fault _ => false
  | .refused x => decide (x = r)

/-- What a decoder reads, without the reason of a refusal. -/
def reads (x : Except DecodeError Instr) : Option Instr :=
  match x with
  | .ok i => some i
  | .error _ => none

/-! ## Well-formedness -/

theorem test_wf_refuses_fault_reason : Instr.wf (.fault 2) = false ∧ Instr.wf (.fault 1) = true := by decide

/-- T-EXC: d_bit = [4, 4, 6, 7]. -/
theorem test_wf_refuses_equal_offsets : ¬ Handle.wf { Handle.default with d5Bit := 4 } := by decide

/-- T-EXC: RS on the pin of D4. -/
theorem test_wf_refuses_equal_pins : ¬ Handle.wf { Handle.default with rsBit := 4 } := by decide

/-- T-EXC: RS and E on the data port at bits 0 and 1. -/
theorem test_wf_accepts_shared_port : Handle.wf Handle.default := by decide

theorem test_wf_refuses_equal_command_bytes : ¬ Config.cmdBytesDistinct { Config.default with cmdHome := 0x01 } := by decide

/-- T-EXC: an ill-formed handle is refused at launch. -/
theorem test_launch_refuses_bad_handle :
    isRefused (step (State.launch { cfg0 with handle := { Handle.default with d5Bit := 4 } })) (.stopped .badHandle) = true ∧
      RefuseMark.badHandle.code = 0x10 := by decide

/-! ## Decoding: T-ENC -/

theorem test_decode_lcdInit : reads (decodeReq ⟨0x0000000, []⟩) = some .lcdInit := by decide
theorem test_decode_lcdCommand : reads (decodeReq ⟨0x00000E1, []⟩) = some (.lcdCommand 0x0E) := by decide
theorem test_decode_lcdPrintChar : reads (decodeReq ⟨0x0000482, []⟩) = some (.lcdPrintChar 0x48) := by decide
theorem test_decode_lcdPrintCharAt : reads (decodeReq ⟨0x0503423, []⟩) = some (.lcdPrintCharAt 0x42 3 5) := by decide
theorem test_decode_lcdPrintString :
    reads (decodeReq ⟨0x0000004, [0x4F, 0x4B]⟩) = some (.lcdPrintString [0x4F, 0x4B]) := by decide
theorem test_decode_lcdPrintStringAt :
    reads (decodeReq ⟨0x0102005, [0x48, 0x00]⟩) = some (.lcdPrintStringAt [0x48, 0x00] 2 1) := by decide
theorem test_decode_reserved_op : reads (decodeReq ⟨0x0000007, []⟩) = none := by decide
theorem test_decode_strobeEnable : reads (decodeMacro 0x0 0 0 0) = some .strobeEnable := by decide
theorem test_decode_sendNibble : reads (decodeMacro 0x1 0x3 0 0) = some (.sendNibble 0x3) := by decide
theorem test_decode_setCursor : reads (decodeMacro 0x2 0 2 16) = some (.setCursor 2 16) := by decide
theorem test_decode_unused_macro : reads (decodeMacro 0x3 0 0 0) = none := by decide
theorem test_decode_cfgOut : reads (decodeUop 0x00000000) = some .cfgOut := by decide
theorem test_decode_setRs : reads (decodeUop 0x00000009) = some (.setRs true) := by decide
theorem test_decode_setE : reads (decodeUop 0x00000002) = some (.setE false) := by decide
theorem test_decode_writeD : reads (decodeUop 0x00000023) = some (.writeD 0x2) := by decide
theorem test_decode_delay : reads (decodeUop 0x00064004) = some (.delay 1600) := by decide
theorem test_decode_fault : reads (decodeUop 0x00000105) = some (.fault 1) := by decide
theorem test_decode_reserved_uops : reads (decodeUop 6) = none ∧ reads (decodeUop 7) = none := by decide
theorem test_decode_cmdClear : reads (decodeCmd Config.default 0x01) = some .cmdClear := by decide
theorem test_decode_cmdHome : reads (decodeCmd Config.default 0x02) = some .cmdHome := by decide
theorem test_decode_cmdFuncset : reads (decodeCmd Config.default 0x28) = some .cmdFuncset := by decide
theorem test_decode_initDispctrl : reads (decodeCmd Config.default 0x0F) = some .initDispctrl := by decide
theorem test_decode_initEntry : reads (decodeCmd Config.default 0x06) = some .initEntry := by decide
theorem test_decode_setDdramAddr : reads (decodeCmd Config.default 0xC0) = some (.setDdramAddr 0x40) := by decide
theorem test_decode_unclassified : reads (decodeCmd Config.default 0x40) = none := by decide

/-- T-ENC: seq_cmd(0x28) as UOP words. -/
theorem test_words_of_command :
    expand Config.default (.lcdCommand 0x28) =
      [.uop 0x00000001, .uop 0x00000104, .uop 0x00000023, .uop 0x00002804, .uop 0x0000000A, .uop 0x00002804,
        .uop 0x00000002, .uop 0x00000083, .uop 0x00002804, .uop 0x0000000A, .uop 0x00002804, .uop 0x00000002,
        .uop 0x00002804] := by decide

/-- T-ENC: LATCH frames. -/
theorem test_latch_frames :
    latchFrame false 0x3 = 0x03 ∧ latchFrame true 0x4 = 0x14 ∧ latchFrame true 0x9 = 0x19 ∧ latchFrame false 0xC = 0x0C := by
  decide

/-! ## Micro-operations: T-PRIM -/

/-- T-PRIM 1. -/
theorem test_cfgOut :
    (after (exec .cfgOut (start []))).map (fun t => (t.ddrs, t.ports, t.trace)) =
      some ([(0, 0xF3)], [], [.cfg 0]) := by decide

/-- T-PRIM 2, at the pins of T-EXC: E in bit 1 and 0x3 in bits 7..4. -/
theorem test_setE_latches :
    (after (step (running 0x00000002 0x32 0xF3 100080))).map (fun t => (t.outE, t.outD, t.trace)) =
      some (false, 0x3, [.pin 100080 .e false, .latch 100080 (some false) (some 0x3)]) := by decide

/-- T-PRIM 5: RS is no output, so its sample is ⊥; and T-PRIM 3 and 4: no latch of a low E nor of an undriven one. -/
theorem test_setE_samples :
    (after (step (running 0x00000002 0x52 0xF2 7))).map (fun t => t.trace) =
        some [.pin 7 .e false, .latch 7 none (some 0x5)] ∧
      (after (step (running 0x00000002 0x50 0xF3 7))).map (fun t => t.trace) = some [.pin 7 .e false] ∧
      (after (step (running 0x00000002 0x52 0xF1 7))).map (fun t => t.trace) = some [.pin 7 .e false] := by decide

/-- T-PRIM 7. -/
theorem test_setRs :
    (after (step (running 0x00000009 0x01 0xF3 5))).map (fun t => (t.ports, t.trace, t.upc)) =
      some ([(0, 0x01)], [.pin 5 .rs true], 1) := by decide

/-- The WRITE_D table of T-PRIM, first row, from the fetch of the word 0x93. -/
theorem test_writeD :
    (after (step (running 0x00000093 0xA3 0xF3 5))).map (fun t => (t.ports, t.trace)) =
      some ([(0, 0x93)], [.data 5 0x9]) := by decide

/-- The WRITE_D table of T-PRIM, the other rows: a permuted handle, and the bits the mask leaves alone. -/
theorem test_writeD_masks :
    let m := fun (a b c d : Fin 8) (p : Byte) (n : Nibble) =>
      let h := { Handle.default with d4Bit := a, d5Bit := b, d6Bit := c, d7Bit := d }
      (dMask h, dValue h n, Regs.read (Regs.maskWrite [(0, p)] 0 (dMask h) (dValue h n)) 0)
    m 0 1 2 3 0xF0 0x6 = (0x0F, 0x06, 0xF6) ∧ m 7 0 3 5 0xFF 0xA = (0xA9, 0x21, 0x77) ∧
      m 4 5 6 7 0x5A 0x0 = (0xF0, 0x00, 0x0A) := by decide

/-- T-PRIM 8 and 9. -/
theorem test_delay :
    (after (step (running 0x00002804 0 0 1))).map (fun t => (t.t, t.trace)) = some (41, []) ∧
      (after (step (running 0x00000004 0 0 105340))).map (fun t => t.t) = some 105340 := by decide

/-- T-PRIM 10. -/
theorem test_fault :
    (after (step (running 0x00000105 0 0 158186))).map (fun t => (t.fault, t.uq, t.trace, t.cur)) =
      some (some 1, [], [.fault 158186 1], some .lcdInit) := by decide

/-! ## Composites and command bytes -/

/-- T-PRIM: SEND_NIBBLE 0x3. -/
theorem test_sendNibble :
    (after (exec (.sendNibble 0x3) (start []))).map (fun t => (t.uq, t.t, t.upc)) =
      some ([.uop 0x33, .uop 0x2804, .uop 0xA, .uop 0x2804, .uop 0x2], 0, 0) := by decide

theorem test_strobeEnable :
    (after (exec .strobeEnable (start []))).map (fun t => t.uq) =
      some [.uop 0x2804, .uop 0xA, .uop 0x2804, .uop 0x2] := by decide

/-- T-ADDR: row 2, column 1 is command 0xC0, row 3 issues nothing. -/
theorem test_setCursor :
    (after (exec (.setCursor 2 1) (start []))).map (fun t => t.uq) = some (expand cfg0 (.lcdCommand 0xC0)) ∧
      (after (exec (.setCursor 3 1) (start []))).map (fun t => t.uq) = some [] := by decide

/-- T-TX: the long wait 1600 stands last after clear and home, 40 after the others. -/
theorem test_command_bytes_waits :
    [Instr.cmdClear, .cmdHome, .cmdFuncset, .initDispctrl, .initEntry, .setDdramAddr 0x40].map
        (fun i => (after (exec i (start []))).bind (fun t => t.uq.getLast?)) =
      [some (.uop 0x64004), some (.uop 0x64004), some (.uop 0x2804), some (.uop 0x2804), some (.uop 0x2804),
        some (.uop 0x2804)] := by decide

/-- The high nibble of each command byte goes first: WRITE_D 0, 0, 2, 0, 0, 0xC. -/
theorem test_command_bytes_nibbles :
    [Instr.cmdClear, .cmdHome, .cmdFuncset, .initDispctrl, .initEntry, .setDdramAddr 0x40].map
        (fun i => (after (exec i (start []))).bind (fun t => t.uq[2]?)) =
      [some (.uop 0x03), some (.uop 0x03), some (.uop 0x23), some (.uop 0x03), some (.uop 0x03), some (.uop 0xC3)] := by
  decide

/-! ## Requests -/

theorem test_lcdInit_accepted :
    (after (step (start [ask 0x0000000 0]))).map (fun t => (t.uq.length, t.upc, t.initCount, t.trace)) =
      some (80, 0, 1, [.reqBegin 0 .lcdInit]) := by decide

/-- T-TX: LCD_COMMAND 0x01 has 13 micro-ops and the long wait last. -/
theorem test_lcdCommand_accepted :
    (after (step (start [ask 0x0000011 0]))).map (fun t => (t.uq.length, t.uq.getLast?, t.cur, t.initCount)) =
      some (13, some (.uop 0x64004), some (.lcdCommand 0x01), 0) := by decide

/-- T-TX: LCD_PRINT_CHAR 0x01 has RS = 1 and never the long wait. -/
theorem test_lcdPrintChar_accepted :
    (after (step (start [ask 0x0000012 0]))).map (fun t => (t.uq.head?, t.uq.getLast?)) =
      some (some (.uop 0x9), some (.uop 0x2804)) := by decide

/-- T-ADDR: 26 micro-ops for a valid row, 13 for row 3. -/
theorem test_lcdPrintCharAt_accepted :
    (after (step (start [ask 0x1101413 0]))).map (fun t => t.uq.length) = some 26 ∧
      (after (step (start [ask 0x0503423 0]))).map (fun t => t.uq.length) = some 13 := by decide

/-- The payload table: the byte after the terminator is not sent; the empty object ends in FAULT 1 at once. -/
theorem test_lcdPrintString_accepted :
    (after (step { start [ask 0x0000004 4] with mem := [(0, 0x48), (1, 0x00), (2, 0x49), (3, 0x00)] })).map
        (fun t => (t.uq.length, t.cur)) = some (13, some (.lcdPrintString [0x48, 0x00, 0x49, 0x00])) ∧
      (after (step (start [ask 0x0000004 0]))).map (fun t => t.uq) = some [.uop 0x105] := by decide

/-- The payload table: [0x00] completes as it is accepted; and an object that nothing has written is accepted
too, whatever its bytes are (R70). -/
theorem test_lcdPrintString_empty :
    (after (step { start [ask 0x0000004 1] with mem := [(0, 0x00)] })).map (fun t => (t.uq, t.cur, t.trace)) =
        some ([], none, [.reqBegin 0 (.lcdPrintString [0x00]), .reqEnd 0 (.lcdPrintString [0x00])]) ∧
      (∃ t, step (start [ask 0x0000004 1]) = .next t) := 
  ⟨by decide, exec_next (.lcdPrintString [callerByte [] 0]) ((start [ask 4 1]).hostArrive (ask 4 1) [])⟩

/-- R96: a byte after the first 0x00 that nothing has written is no obstacle: one character, 13 micro-ops. -/
theorem test_bytes_after_nul :
    (after (step { start [ask 0x0000004 3] with mem := [(0, 0x48), (1, 0x00)] })).map (fun t => t.uq.length) = some 13 := by
  decide

/-- P2: 39 micro-ops; and T-ADDR: with INVALID_ROW_SENDS_DATA false an invalid row has none, unterminated or not. -/
theorem test_lcdPrintStringAt_accepted :
    (after (step { start [ask 0x0102005 3] with mem := [(0, 0x48), (1, 0x49), (2, 0x00)] })).map
        (fun t => t.uq.length) = some 39 ∧
      (expand { cfg0 with invalidRowSendsData := false } (.lcdPrintStringAt [0x41] 3 1)) = [] := by decide

/-- T-EXC: op 7. -/
theorem test_reserved_request :
    (after (step (start [ask 0x0000007 0]))).map (fun t => (t.refused, t.trace, t.uq, RefuseMark.badRequest.code)) =
      some (some .badRequest, [], [], 0x11) := by decide

/-! ## Functions -/

/-- T-TX: is_long. -/
theorem test_isLong :
    [0x00, 0x01, 0x02, 0x03, 0x04, 0x81, 0xFF].map (isLong Config.default) =
      [false, true, true, false, false, false, false] := by decide

/-- T-ADDR. -/
theorem test_ddramCmd :
    [(1, 1), (1, 16), (1, 17), (1, 40), (1, 41), (1, 65), (1, 130), (1, 131), (1, 132), (1, 255), (1, 0)].map
        (fun p => ddramCmd Config.default p.1 p.2) =
      [some 0x80, some 0x8F, some 0x90, some 0xA7, some 0xA8, some 0xC0, some 0x01, some 0x02, some 0x03, some 0x7E,
        some 0x7F] ∧
    [(2, 1), (2, 16), (2, 0), (2, 65), (2, 66), (2, 67), (2, 68), (2, 255), (0, 9), (3, 1), (255, 255)].map
        (fun p => ddramCmd Config.default p.1 p.2) =
      [some 0xC0, some 0xCF, some 0xBF, some 0x00, some 0x01, some 0x02, some 0x03, some 0xBE, none, none, none] := by
  decide

/-- The payload table of T-TX. -/
theorem test_payload :
    payload .nulTerminated [0x48, 0x00, 0x49, 0x00] = [0x48] ∧ terminated .nulTerminated [0x4F, 0x4B] = false ∧
      payload .lengthBounded [0x41, 0x00] = [0x41, 0x00] ∧ terminated .lengthBounded [] = true ∧
      terminated .nulTerminated [] = false := by decide

/-- T-INIT: upc to state. -/
theorem test_init_states :
    [0, 3, 4, 9, 10, 16, 21, 22, 27, 40, 53, 66, 79, 80].map (initStateAt Config.default) =
      [.powerSettle, .powerSettle, .reset1, .reset1, .reset2, .reset3, .reset3, .mode4Bit, .functionSet, .displayClear,
        .cursorMode, .entryMode, .finalSettle, .ready] := by decide

/-- R78: the two spellings of a request. -/
theorem test_spellings :
    mnemonicForm .nulTerminated (.lcdPrintStringAt [0x48, 0x49, 0x00] 2 1) = some "LCD_PRINT_STRING_AT \"HI\", 2, 1".toList ∧
      callForm .nulTerminated (.lcdCommand 0x01) = some "lcd_command(h, 0x01)".toList := by decide

/-! ## The controller: T-OBS -/

/-- An observer in a mode, everything else as after a clear. -/
def seen (m : ObsMode) (ac : AddrCounter) : Observer :=
  { Observer.powerOn with mode := m, func := some 0x28, dctl := some 0x0F, entry := some 0x06, ac := ac, shift := .zero }

/-- Several latches, each (t, RS, nibble). -/
def latched (o : Observer) (l : List (Nat × Bool × Nibble)) : Observer :=
  l.foldl (fun o x => o.latch cfg0 x.1 (some x.2.1) (some x.2.2)) o

/-- T-OBS 1, 2 and 3. -/
theorem test_obs_blind_reset :
    (latched Observer.powerOn [(100080, false, 3), (105160, false, 3), (105340, false, 3)]).busyUntil = 105377 ∧
      (latched Observer.powerOn [(100080, false, 3), (105160, false, 3), (105340, false, 3)]).mode = .m8 ∧
      (latched Observer.powerOn [(100080, false, 3), (101080, false, 3)]).k = 1 ∧
      (latched Observer.powerOn [(100080, false, 3), (101080, false, 3)]).tk = some 101080 ∧
      (latched (seen .m8 .cg) [(9, false, 2)]).mode = .m4h ∧ (latched (seen .m8 .cg) [(9, false, 2)]).func = none := by
  decide

/-- T-OBS 4. -/
theorem test_obs_mismatched_pair :
    (latched (seen (.m4l true 5) (.ddram 0))
      [(100080, false, 3), (105160, false, 3), (105340, false, 3), (105420, false, 2)]).mode = .m4h := by decide

/-- T-OBS 5 and 6. -/
theorem test_obs_character :
    ((seen .m4h (.ddram 0x27)).execCharacter cfg0 0x41 9).ddram = [(0x27, 0x41)] ∧
      ((seen .m4h (.ddram 0x27)).execCharacter cfg0 0x41 9).ac = .ddram 0x40 ∧
      ((seen .m4h (.ddram 0x67)).execCharacter cfg0 0x41 9).ac = .ddram 0x00 := by decide

/-- T-OBS 7, 8, 9 and 10. -/
theorem test_obs_losses :
    (latched (seen .m4h (.ddram 0)) [(157865, false, 0), (157945, false, 3)]).busyUntil = 159465 ∧
      (latched (seen .m4h (.ddram 0)) [(157865, false, 0), (157945, false, 3), (158066, true, 4)]).mode = .unknown ∧
      (latched (seen .m4h (.ddram 0)) [(81, false, 0xA), (161, false, 8)]).ac = .unknown ∧
      (latched (seen .m4h (.ddram 0)) [(81, false, 4), (161, false, 0)]).ac = .cg ∧
      ((seen .m4h (.ddram 0)).latch cfg0 9 none (some 3)).mode = .unknown := by decide

/-! ## Witnesses: the hypotheses of the statements can be met -/

theorem witness_LaunchHoldsTheResetTable : ∃ c : Config, c.handle.wf := ⟨Config.default, by decide⟩

theorem witness_IllFormedHandleIsRefusedAtLaunch :
    (∃ c : Config, ¬ c.handle.wf) ∧ (∃ c : Config, c.handle.wf) :=
  ⟨⟨{ cfg0 with handle := { Handle.default with d5Bit := 4 } }, by decide⟩, ⟨cfg0, by decide⟩⟩

theorem witness_MarkedStateHasNoMove :
    (∃ (s : State) (r : BitVec 24), s.fault = some r) ∧
      (∃ (s : State) (m : RefuseMark), s.fault = none ∧ s.refused = some m) ∧ (∃ s t : State, step s = .next t) :=
  ⟨⟨{ start [] with fault := some 1 }, 1, rfl⟩, ⟨{ start [] with refused := some .badRequest }, .badRequest, rfl, rfl⟩,
    ⟨start [], _, rfl⟩⟩

/-- A micro-op, a composite and a command byte at the head; the completion check succeeding, failing and with no request. -/
theorem witness_StepRunsTheDecodedHead :
    ∀ it ∈ [Item.uop 0x00000004, .macroOp 0x1 0x3 0 0, .cmd 0xC0], ∀ cur ∈ [none, some Instr.lcdInit], ∀ rest ∈ [[], [it]],
      ∃ (s : State) (i : Instr), s.safe ∧ s.uq = it :: rest ∧ s.cur = cur ∧ decodeItem s.cfg it = .ok i ∧ i.wf = true := by
  intro it hit cur _ rest _
  refine ⟨{ start [] with uq := it :: rest, cur := cur }, ?_⟩
  simp only [List.mem_cons, List.not_mem_nil, or_false] at hit
  obtain rfl | rfl | rfl := hit
  · exact ⟨_, ⟨rfl, rfl⟩, rfl, rfl, rfl, rfl⟩
  · exact ⟨_, ⟨rfl, rfl⟩, rfl, rfl, rfl, rfl⟩
  · exact ⟨_, ⟨rfl, rfl⟩, rfl, rfl, rfl, rfl⟩

/-- A request without a string operand, one with, and none to come. -/
theorem witness_StepAcceptsTheDecodedRequest :
    (∃ s : State, s.safe ∧ s.idle ∧ s.hostq = []) ∧
      (∃ (s : State) (q : HostReq), s.safe ∧ s.idle ∧ s.hostq = [q] ∧ ¬ (reqOp q.word = 0x4 ∨ reqOp q.word = 0x5) ∧
        decodeReq ⟨q.word, []⟩ = .ok (.lcdCommand 0x01)) ∧
      (∃ (s : State) (q : HostReq), s.safe ∧ s.idle ∧ s.hostq = [q] ∧ (reqOp q.word = 0x4 ∨ reqOp q.word = 0x5) ∧
        decodeReq ⟨q.word, Cells.readObject (Cells.writeAll s.mem q.stores) q.addr q.len⟩ =
          .ok (.lcdPrintString [0x48, 0x00])) :=
  ⟨⟨start [], by decide, by decide, rfl⟩, ⟨start [ask 0x11 0], ask 0x11 0, by decide, by decide, rfl, by decide, rfl⟩,
    ⟨start [{ ask 0x4 2 with stores := [(0, 0x48), (1, 0x00)] }], { ask 0x4 2 with stores := [(0, 0x48), (1, 0x00)] },
      by decide, by decide, rfl, by decide, rfl⟩⟩

/-- At both ends of the reserved ops. -/
theorem witness_ReservedRequestIsRefused :
    ∀ w ∈ [(0x6 : BitVec 28), 0xF], ∃ (s : State) (q : HostReq), s.safe ∧ s.idle ∧ s.hostq = [q] ∧ q.word = w ∧
      6 ≤ (reqOp q.word).toNat := by
  intro w hw
  refine ⟨start [ask w 0], ask w 0, ⟨rfl, rfl⟩, ⟨rfl, rfl⟩, rfl, rfl, ?_⟩
  simp only [List.mem_cons, List.not_mem_nil, or_false] at hw
  obtain rfl | rfl := hw <;> decide

/-- LCD_COMMAND 0x01 in the middle of its first strobe, E high. -/
def midStrobe : State :=
  { start [] with cur := some (.lcdCommand 0x01), upc := 5, uq := (expand cfg0 (.lcdCommand 0x01)).drop 5
                  trace := [.pin 0 .e true], ports := [(0, 0x02)] }

/-- An idle state about to accept a request, and a busy one. -/
theorem witness_StepKeepsInv :
    (∃ t, (start [ask 0x11 0]).Inv ∧ step (start [ask 0x11 0]) = .next t) ∧
      (∃ t, midStrobe.Inv ∧ step midStrobe = .next t) := by
  refine ⟨⟨_, ⟨?_, rfl, ?_, ?_, ?_⟩, rfl⟩, ⟨_, ⟨?_, rfl, ?_, ?_, ?_⟩, rfl⟩⟩
  · exact ⟨by decide, by decide, by decide, by decide, by decide⟩
  · exact ⟨by decide, by decide⟩
  · exact ⟨fun _ _ => rfl, fun r h => (nomatch h)⟩
  · exact ⟨.inl rfl, fun h => absurd rfl h, by decide⟩
  · exact ⟨by decide, by decide, by decide, by decide, by decide⟩
  · exact ⟨by decide, by decide⟩
  · exact ⟨fun _ h => (nomatch h), fun r h => by cases h; exact ⟨rfl, fun _ => by decide⟩⟩
  · exact ⟨.inl rfl, fun h => absurd rfl h, by decide⟩

/-- The state in the middle of a strobe, and an idle one in which E has been written. -/
theorem witness_EnableIsLowBetweenStrobes :
    (midStrobe.strobeInv ∧ midStrobe.outE = true) ∧
      (∃ s : State, s.strobeInv ∧ s.refused = none ∧ s.uq = [] ∧ eWritten s.trace = true) := by
  refine ⟨⟨fun _ => ?_, by decide⟩, ⟨{ start [] with trace := [.pin 0 .e false] }, fun _ => ?_, rfl, rfl, rfl⟩⟩
  · exact And.intro (.inl rfl) (And.intro (.inr rfl) (And.intro (.inl rfl) rfl))
  · exact (rfl : (eWritten [.pin 0 .e false] && _) = false)

theorem witness_TimeAndTraceOnlyGrow : ∃ s t : State, step s = .next t := ⟨start [ask 0x11 0], _, rfl⟩

theorem witness_OnlyCfgOutWritesDirections : ∃ s t : State, step s = .next t ∧ t.ddrs ≠ s.ddrs :=
  ⟨running 0x00000000 0 0 0, _, rfl, by decide⟩

/-- A bit of the data port that no line uses, and a bit of another port. -/
theorem witness_OtherPortBitsAreNeverTouched :
    ∃ s t : State, step s = .next t ∧ ¬ s.cfg.handle.isPin 0 2 ∧ ¬ s.cfg.handle.isPin 1 0 :=
  ⟨running 0x00000093 0xFF 0 0, _, rfl, by decide, by decide⟩

/-- A latch, and none of a line that is not driven. -/
theorem witness_LatchExactlyOnFallingDrivenEnable :
    ∀ d ∈ [(0xF3 : Byte), 0xF1], ∃ s t : State, s.cfg.handle.wf ∧ step s = .next t ∧ s.outE = true ∧
      s.ddrs = Regs.write [] 0 d := by
  intro d _
  exact ⟨running 0x00000002 0x32 d 9, _, (by decide : Handle.default.wf), rfl,
    (by decide : (running 0x00000002 0x32 0xF3 9).outE = true), rfl⟩

/-- A listed byte, an inner object, and a busy state. -/
theorem witness_CallerMemoryIsReadInOrderAndNeverWritten :
    (1 < 2 ∧ Cells.read [(7, 0x48), (8, 0x00)] (7 + 1) = some 0x00 ∧ 1 + 1 ≤ 2) ∧
      ∃ s t : State, s.uq ≠ [] ∧ step s = .next t :=
  ⟨by decide, running 0x00000004 0 0 0, _, by decide, rfl⟩

theorem witness_CfgOutMakesSixOutputs : ¬ Handle.default.isPin 0 3 ∧ (0xFFFFFFF8 : BitVec 32).toNat % 8 = 0 := by decide

theorem witness_SetRsDrivesRs :
    ¬ ((0 : PortRef) = Handle.default.rsPort ∧ (7 : Fin 8) = Handle.default.rsBit) ∧ (0x9 : BitVec 32).toNat % 8 = 1 := by
  decide

/-- A falling edge of a driven E, and none. -/
theorem witness_SetEDrivesEnableAndLatches :
    (∃ s : State, s.cfg.handle.wf ∧ s.outE = true ∧ s.dirE = true) ∧ (∃ s : State, s.cfg.handle.wf ∧ s.outE = false) :=
  ⟨⟨running 2 0x32 0xF3 9, by decide, by decide, by decide⟩, ⟨start [], by decide, by decide⟩⟩

theorem witness_WriteDPutsTheNibble : ∃ s : State, s.cfg.handle.wf := ⟨start [], by decide⟩

/-- FAULT at the head of the pending list, and last in the expansion of an unterminated string. -/
theorem witness_DelayWaitsAndFaultStops :
    (∃ (s : State) (it : Item) (rest : List Item), s.safe ∧ s.uq = it :: rest ∧
        decodeItem s.cfg it = .ok (.fault 1)) ∧
      (isRequest (.lcdPrintString []) = true ∧ expand cfg0 (.lcdPrintString []) = [] ++ uFault 1 :: [] ∧
        decodeItem cfg0 (uFault 1) = .ok (.fault 1)) :=
  ⟨⟨running 0x105 0 0 0, _, _, by decide, rfl, rfl⟩, ⟨rfl, rfl, rfl⟩⟩

/-- Each of the four micro-ops that draw, DELAY and FAULT. -/
theorem witness_MicroOpsTakeABoundedDraw :
    ∀ i ∈ [Instr.cfgOut, .setRs true, .setE false, .writeD 0xF, .delay 0, .fault 1], ∃ s t : State, exec i s = .next t := by
  intro i _
  obtain ⟨t, ht⟩ := exec_next i (start [])
  exact ⟨start [], t, ht⟩

/-- The default waits fit, and a wait of exactly the largest DELAY does. -/
theorem witness_fits : Config.default.fits ∧ Config.fits { cfg0 with tPower := 16777215, tReset3 := 0 } := by decide

theorem witness_CompositesExpandInPlace : ∃ s : State, s.cfg.fits := ⟨start [], by decide⟩

theorem witness_CommandBytesRunTheCommandPath : ∃ s : State, s.cfg.fits ∧ s.cfg.cmdBytesDistinct :=
  ⟨start [], by decide, by decide⟩

/-- A request with an expansion, and one without. -/
theorem witness_RequestsAreAccepted :
    (∃ (s : State) (i : Instr), isRequest i = true ∧ s.fault = none ∧ expand s.cfg i ≠ []) ∧
      (∃ (s : State) (i : Instr), isRequest i = true ∧ s.fault = none ∧ expand s.cfg i = []) :=
  ⟨⟨start [], .lcdCommand 1, rfl, rfl, by decide⟩, ⟨start [], .lcdPrintString [0], rfl, rfl, rfl⟩⟩

theorem witness_CommandAndCharacterTransactions : ∃ c : Config, c.fits := ⟨Config.default, by decide⟩

/-- The corners of the grid, and a position outside it. -/
theorem witness_ValidPositionsHaveDistinctAddresses :
    validPosition Config.default 1 1 = true ∧ validPosition Config.default 2 16 = true ∧
      validPosition Config.default 2 17 = false ∧ validPosition { cfg0 with displayRows := 4 } 3 1 = false ∧ ddramCmd Config.default 2 16 = some 0xCF := by decide

/-- A row of the display, and one outside it with the body sent and with it not sent. -/
theorem witness_PositionedWrites :
    cfg0.fits ∧ ddramCmd cfg0 2 1 = some 0xC0 ∧ ((3 : Byte) ≠ 1 ∧ (3 : Byte) ≠ 2 ∧ cfg0.invalidRowSendsData = true) ∧
      (Config.fits { cfg0 with invalidRowSendsData := false } ∧ (0 : Byte) ≠ 1 ∧ (0 : Byte) ≠ 2) := by decide

/-- A terminator first, a terminator last, and none. -/
theorem witness_PayloadEndsAtTheFirstNul :
    ([0x00, 0x41] : List Byte)[0]? = some 0x00 ∧
      (([0x41, 0x00] : List Byte)[1]? = some 0x00 ∧ ∀ j : Nat, j < 1 → ([0x41, 0x00] : List Byte)[j]? ≠ some 0x00) ∧
      (∀ j : Nat, ([] : List Byte)[j]? ≠ some 0x00) := by
  refine ⟨by decide, ⟨by decide, by decide⟩, fun j => by simp⟩

theorem witness_StringsAreCharactersThenFault :
    cfg0.fits ∧ terminated cfg0.stringMode [0x00] = true ∧ terminated cfg0.stringMode [0x41] = false := by decide

/-- Two objects with one payload, and an invalid row that sends nothing. -/
theorem witness_UnreadBytesDoNotMatter :
    (cfg0.stringMode = .nulTerminated ∧ ([0x48, 0x00, 0x49] : List Byte)[1]? = some 0x00 ∧
        ([0x48, 0x00] : List Byte).take 2 = ([0x48, 0x00, 0x49] : List Byte).take 2) ∧
      ∃ c : Config, c.invalidRowSendsData = false ∧ (0 : Byte) ≠ 1 ∧ (3 : Byte) ≠ 2 :=
  ⟨by decide, { cfg0 with invalidRowSendsData := false }, rfl, by decide, by decide⟩

/-- A wait of one DELAY more than fits, and a composite. -/
theorem witness_LongWaitsAreSplitAndSumUp :
    ¬ Config.fits { cfg0 with tPower := 16777216 } ∧ delays 16777216 = [uDelay 16777215, uDelay 1] ∧
      ∃ i : Instr, i = .strobeEnable := ⟨by decide, by decide, .strobeEnable, rfl⟩

theorem witness_InitExpansionHasEightyMicroOps : ∃ c : Config, c.fits := ⟨Config.default, by decide⟩

theorem witness_InitStatesFollowTheIndex : ∃ s : State, s.cfg.fits ∧ s.cur = some .lcdInit :=
  ⟨running 4 0 0 0, by decide, rfl⟩

theorem witness_ExpansionsHoldDecodableMicroOps :
    ∃ (c : Config) (i : Instr) (it : Item), isRequest i = true ∧ it ∈ expand c i :=
  ⟨cfg0, .lcdPrintString [], uFault 1, rfl, .head _⟩

/-- The defaults, an address that is a clear, one that is not, and a row without one. -/
theorem witness_NominalDurations :
    cfg0.atDefaults ∧ ddramCmd cfg0 1 130 = some 0x01 ∧ ddramCmd cfg0 1 1 = some 0x80 ∧ ddramCmd cfg0 3 1 = none ∧
      cfg0.invalidRowSendsData = true ∧ terminated cfg0.stringMode [0x41, 0x00] = true := by decide

/-- A transaction about to run: the lines outputs, E low. -/
theorem witness_TransactionLatchesTwoNibbles :
    ∃ s : State, s.safe ∧ s.cfg.handle.wf ∧ s.uq = seqTransaction s.cfg true 0x41 40 ++ [] ∧ s.linesDriven ∧ s.outE = false ∧
      s.cfg.deltaMax = some 0 :=
  ⟨{ start [] with uq := seqTransaction cfg0 true 0x41 40, cur := some (.lcdPrintChar 0x41), ddrs := [(0, 0xF3)] },
    by decide, by decide, by decide, by decide, by decide, rfl⟩

/-- A request that ends, and one that ends in its FAULT. -/
theorem witness_RequestRunsToItsEndOrFault :
    (∃ (s : State) (q : HostReq), s.safe ∧ s.idle ∧ s.hostq = [q] ∧
        decodeReq ⟨q.word, (s.hostArrive q []).listOperand q⟩ = .ok (.lcdCommand 0x01) ∧ endsInFault s.cfg (.lcdCommand 0x01) = false) ∧
      (∃ (s : State) (q : HostReq), s.safe ∧ s.idle ∧ s.hostq = [q] ∧
        decodeReq ⟨q.word, (s.hostArrive q []).listOperand q⟩ = .ok (.lcdPrintString []) ∧ endsInFault s.cfg (.lcdPrintString []) = true) :=
  ⟨⟨start [ask 0x11 0], ask 0x11 0, by decide, by decide, rfl, rfl, rfl⟩,
    ⟨start [ask 0x4 0], ask 0x4 0, by decide, by decide, rfl, rfl, rfl⟩⟩

theorem witness_InitMakesTheObserverReady :
    ∃ (s : State) (q : HostReq), s.safe ∧ s.idle ∧ s.hostq = [q] ∧ reqOp q.word = 0x0 ∧ s.cfg.atDefaults ∧ s.cfg.handle.wf :=
  ⟨start [ask 0 0], ask 0 0, by decide, by decide, rfl, by decide, by decide, by decide⟩

theorem witness_InitTimeline :
    ∃ (s : State) (q : HostReq), s.safe ∧ s.idle ∧ s.hostq = [q] ∧ reqOp q.word = 0x0 ∧ s.cfg.atDefaults ∧
      s.cfg.handle.wf ∧ s.cfg.deltaMax = some 0 ∧ s.outE = false :=
  ⟨start [ask 0 0], ask 0 0, by decide, by decide, rfl, by decide, by decide, by decide, rfl, by decide⟩

theorem witness_DecodeOfEncode : ∃ c : Config, c.cmdBytesDistinct := ⟨Config.default, by decide⟩

/-- A REQ word and a UOP word of every defined code, the last with every field at its largest. -/
theorem witness_DecodersReadTheFields :
    [(0x0 : BitVec 28), 0x11, 0x482, 0x1101413, 0x4, 0xFFFFFF5].map (fun w => w.toNat % 16) = [0, 1, 2, 3, 4, 5] ∧
      [(0x0 : BitVec 32), 0x9, 0xA, 0xF3, 0xFFFFFF04, 0xFFFFFFFD].map (fun w => w.toNat % 8) = [0, 1, 2, 3, 4, 5] := by
  decide

/-- A reserved word at the head of the pending list. -/
theorem witness_ReservedEncodingsAreRefused :
    ∃ s : State, s.safe ∧ s.uq = [.uop 6] ∧ decodeItem s.cfg (.uop 6) = .error (.reservedUop 6) :=
  ⟨{ start [] with uq := [.uop 6] }, by decide, rfl, rfl⟩

/-- A latch before busy_until and an undriven one. -/
theorem witness_TimingViolationLosesEverything :
    ∃ (o : Observer) (t : Nat) (rs : Option Bool) (n : Option Nibble), rs ≠ none ∧ n ≠ none ∧ o.mode ≠ .unknown ∧
      t < o.busyUntil :=
  ⟨{ seen .m4h .cg with busyUntil := 1 }, 0, some true, some 0, by decide, by decide, by decide, by decide⟩

/-- Each count of pulses. -/
theorem witness_BlindResetCountsThreePulses :
    ∀ k ∈ [(0 : Fin 3), 1, 2], ∃ o : Observer, o.mode = .unknown ∧ o.k = k ∧ o.tk = some 100080 := by
  intro k _
  exact ⟨{ Observer.powerOn with k := k, tk := some 100080 }, rfl, rfl, rfl⟩

/-- Each known mode, a pair with one RS and a pair with two. -/
theorem witness_NibblesAreReadByTheMode :
    ∀ m ∈ [ObsMode.m8, .m4h, .m4l false 0xF, .m4l true 0x0], ∃ o : Observer, o.busyUntil ≤ 0 ∧ o.mode = m := by
  intro m _
  exact ⟨{ Observer.powerOn with mode := m }, Nat.le_refl 0, rfl⟩

/-- Both ends of every range of the controller's table. -/
theorem witness_ControllerInstructionTable :
    [(0x00 : Byte), 0x01, 0x02, 0x03, 0x04, 0x07, 0x08, 0x0F, 0x10, 0x1F, 0x20, 0x3F, 0x40, 0x7F, 0x80, 0xFF].map ctlClass =
      [.undefinedByte, .clearDisplay, .returnHome, .returnHome, .entryModeSet, .entryModeSet, .displayControl,
        .displayControl, .shiftMove, .shiftMove, .functionSet, .functionSet, .setCgram, .setCgram, .setDdram, .setDdram] := by
  decide

/-- Each kind of address counter, with the entry mode known and not. -/
theorem witness_CharacterWrites :
    (∃ o : Observer, o.ac = .ddram 0x7F ∧ o.entry = none) ∧ (∃ o : Observer, o.ac = .ddram 0 ∧ o.entry = some 0x07) ∧
      (∃ o : Observer, o.ac = .cg) ∧ (∃ o : Observer, o.ac = .unknown) :=
  ⟨⟨{ seen .m4h (.ddram 0x7F) with entry := none }, rfl, rfl⟩, ⟨{ seen .m4h (.ddram 0) with entry := some 0x07 }, rfl, rfl⟩,
    ⟨seen .m4h .cg, rfl⟩, ⟨seen .m4h .unknown, rfl⟩⟩

/-- 2-line mode and not; and the ends of both lines. -/
theorem witness_AddressCounterMoves :
    (∃ o : Observer, (∃ f, o.func = some f ∧ f.toNat / 8 % 2 = 1) ∧ o.valid 0x00 = true ∧ o.valid 0x27 = true ∧
        o.valid 0x40 = true ∧ o.valid 0x67 = true ∧ o.valid 0x28 = false ∧ o.valid 0x3F = false ∧ o.valid 0x68 = false) ∧
      (∃ o : Observer, ¬ (∃ f, o.func = some f ∧ f.toNat / 8 % 2 = 1)) :=
  ⟨⟨seen .m4h .cg, ⟨0x28, rfl, by decide⟩, by decide⟩, ⟨Observer.powerOn, fun ⟨_, h, _⟩ => nomatch h⟩⟩

/-- A visible corner, and an observer that shows nothing. -/
theorem witness_VisibleCharacters :
    (∃ o : Observer, 1 ≤ 16 ∧ 16 ≤ Config.default.displayCols ∧ o.mode = .m4h ∧
        (∃ f, o.func = some f ∧ f.toNat / 8 % 2 = 1) ∧ o.shift = .zero ∧ (∃ d, o.dctl = some d ∧ d.toNat / 4 % 2 = 1)) ∧
      (∃ o : Observer, o.mode ≠ .m4h) :=
  ⟨⟨seen .m4h .cg, by decide, by decide, rfl, ⟨0x28, rfl, by decide⟩, rfl, ⟨0x0F, rfl, by decide⟩⟩,
    ⟨Observer.powerOn, by decide⟩⟩

/-- Two clears, the second no earlier than the first one's end. -/
theorem witness_ClearIsIdempotent :
    ∃ (o o1 : Observer), o.mode = .m4h ∧ (∃ f, o.func = some f ∧ f.toNat / 8 % 2 = 1) ∧ o.busyUntil ≤ 157865 ∧
      o1 = (o.latch cfg0 157865 (some false) (some 0x0)).latch cfg0 157945 (some false) (some 0x1) ∧ o1.busyUntil ≤ 159626 :=
  ⟨seen .m4h .cg, _, rfl, ⟨0x28, rfl, by decide⟩, by decide, rfl, by decide⟩

end Sys2Proof.Tests
end

section
/-! PROOF. O14: the observer is written by latches and read by nothing but the observer itself. A state with another
observer in its place runs alongside the first one; each operation of the step carries the replacement along. -/

namespace Sys2Proof.Machine

/-- The state with another observer in place of its own. -/
def State.withObs (s : State) (o : Observer) : State := { s with obs := o }

/-- Two outcomes that agree in all but the observer: the relation of R2 and R33 between the two runs. -/
def SameButObserver : Host.Outcome State Fault Refusal → Host.Outcome State Fault Refusal → Prop
  | .next t, .next u => ∃ o, u = t.withObs o
  | .fault a, .fault b => a = b
  | .refused a, .refused b => a = b
  | _, _ => False

/-- The completion check does not read the observer. -/
theorem State.finish_withObs (s : State) (o : Observer) : (s.withObs o).finish = s.finish.withObs o := by
  by_cases hdone : s.uq = [] ∧ s.fault = none
  · cases hcur : s.cur with
    | some r => simp [State.finish, State.withObs, hdone, hcur]
    | none => simp [State.finish, State.withObs, hdone, hcur]
  · simp [State.finish, State.withObs, hdone]

/-- Acceptance does not read the observer. -/
theorem State.accept_withObs (s : State) (r : Instr) (l : List Item) (o : Observer) :
    (s.withObs o).accept r l = (s.accept r l).withObs o :=
  (s.begin r l).finish_withObs o

/-- SET_E does the same to all but the observer; where its edge is a latch, each observer takes the same sample. -/
theorem execSetE_withObs (v : Bool) (s : State) (o : Observer) :
    SameButObserver (execSetE v s) (execSetE v (s.withObs o)) := by
  have guard : (s.withObs o).outE = s.outE ∧ (s.withObs o).dirE = s.dirE := ⟨rfl, rfl⟩
  simp only [execSetE, guard]
  split
  · exact ⟨_, rfl⟩
  · exact ⟨o, rfl⟩

/-- No instruction reads the observer. -/
theorem exec_withObs (i : Instr) (s : State) (o : Observer) : SameButObserver (exec i s) (exec i (s.withObs o)) := by
  cases i with
  | lcdInit => exact ⟨o, State.accept_withObs { s with initCount := s.initCount + 1 } _ _ o⟩
  | lcdCommand | lcdPrintChar | lcdPrintCharAt | lcdPrintString | lcdPrintStringAt =>
    exact ⟨o, s.accept_withObs _ _ o⟩
  | setE v => exact execSetE_withObs v s o
  | _ => exact ⟨o, rfl⟩

/-- The engine move decodes the same entry, executes it and completes alike. -/
theorem engineMove_withObs (s : State) (it : Item) (rest : List Item) (o : Observer) :
    SameButObserver (engineMove s it rest) (engineMove (s.withObs o) it rest) := by
  have hcfg : (s.withObs o).cfg = s.cfg := rfl
  have hpop : (s.withObs o).popItem it rest = (s.popItem it rest).withObs o := rfl
  simp only [engineMove, hcfg, hpop]
  cases decodeItem s.cfg it with
  | error e => rfl
  | ok i =>
    have hexec := exec_withObs i (s.popItem it rest) o
    obtain ⟨t, ht⟩ := exec_next i (s.popItem it rest)
    obtain ⟨u, hu⟩ := exec_next i ((s.popItem it rest).withObs o)
    rw [ht, hu] at hexec
    obtain ⟨o', rfl⟩ := hexec
    simp only [ht, hu]
    exact ⟨o', t.finish_withObs o'⟩

/-- The host move reads the same request from the same memory, and accepts or refuses it alike. -/
theorem hostMove_withObs (s : State) (h : HostReq) (hs : List HostReq) (o : Observer) :
    SameButObserver (hostMove s h hs) (hostMove (s.withObs o) h hs) := by
  have harrive : (s.withObs o).hostArrive h hs = (s.hostArrive h hs).withObs o := rfl
  have hoperand : ((s.hostArrive h hs).withObs o).listOperand h = (s.hostArrive h hs).listOperand h := rfl
  simp only [hostMove, harrive, hoperand]
  cases decodeReq { word := h.word, s := (s.hostArrive h hs).listOperand h } with
  | error e => exact ⟨o, rfl⟩
  | ok i => exact exec_withObs i (s.hostArrive h hs) o

/-- A step takes the same branch whatever the observer: the marks, the pending list, the current request and the host's
queue choose it. -/
theorem step_withObs (s : State) (o : Observer) : SameButObserver (step s) (step (s.withObs o)) := by
  obtain ⟨cfg, ports, ddrs, t, cur, uq, upc, trace, fault, refused, initCount, obs, mem, hostq, draws⟩ := s
  cases fault with
  | some r => rfl
  | none =>
    cases refused with
    | some m => rfl
    | none =>
      cases uq with
      | cons it rest => exact engineMove_withObs _ it rest o
      | nil =>
        cases cur with
        | some r => rfl
        | none =>
          cases hostq with
          | nil => exact ⟨o, rfl⟩
          | cons h hs => exact hostMove_withObs _ h hs o

/-- Settles O14: the obligation's match on the two outcomes is `SameButObserver`, constructor by constructor. -/
theorem blockNeverReadsTheController : Obligations.BlockNeverReadsTheController := by
  intro s o
  have h : SameButObserver (step s) (step { s with obs := o }) := step_withObs s o
  revert h
  generalize step s = x
  generalize step { s with obs := o } = y
  intro h
  cases x <;> cases y <;> exact h

end Sys2Proof.Machine
end

section
/-! PROOF. O36, and the form of a request's expansion: micro-op words other than FAULT, and after them one FAULT 1
exactly where an unterminated string is sent. -/

namespace Sys2Proof.Machine

/-- The micro-ops other than FAULT: they change lines, directions or time and leave the sequencer alone (R82 to R86). -/
def isPlain (i : Instr) : Bool :=
  match i with
  | .cfgOut | .setRs _ | .setE _ | .writeD _ | .delay _ => true
  | _ => false

/-- A micro-op word is a plain micro-op or a FAULT (R72). -/
theorem decodeUop_plain_or_fault {w : BitVec 32} {j : Instr} (h : decodeUop w = .ok j) :
    isPlain j = true ∨ ∃ r, j = .fault r := by
  unfold decodeUop at h
  split at h <;> cases h
  case h_6 => exact .inr ⟨_, rfl⟩
  all_goals exact .inl rfl

/-- The entry is the word of a plain micro-op. -/
def PlainOp (it : Item) : Prop := ∃ w j, it = .uop w ∧ decodeUop w = .ok j ∧ isPlain j = true

/-- Every entry of the list is the word of a plain micro-op. -/
def PlainOps (l : List Item) : Prop := ∀ it ∈ l, PlainOp it

@[simp] theorem plainOps_nil : PlainOps [] := by simp [PlainOps]

@[simp] theorem plainOps_cons {it : Item} {l : List Item} : PlainOps (it :: l) ↔ PlainOp it ∧ PlainOps l :=
  List.forall_mem_cons

@[simp] theorem plainOps_append {l m : List Item} : PlainOps (l ++ m) ↔ PlainOps l ∧ PlainOps m :=
  List.forall_mem_append

theorem PlainOps.flatMap {α : Type} {l : List α} {f : α → List Item} (h : ∀ a, PlainOps (f a)) :
    PlainOps (l.flatMap f) := by
  intro it hit
  obtain ⟨a, _, ha⟩ := List.mem_flatMap.mp hit
  exact h a it ha

@[simp] theorem plainOp_uCfgOut : PlainOp uCfgOut := ⟨_, _, rfl, decodeItem_uCfgOut Config.default, rfl⟩

@[simp] theorem plainOp_uSetRs (v : Bool) : PlainOp (uSetRs v) :=
  ⟨_, _, rfl, decodeItem_uSetRs Config.default v, rfl⟩

@[simp] theorem plainOp_uSetE (v : Bool) : PlainOp (uSetE v) := ⟨_, _, rfl, decodeItem_uSetE Config.default v, rfl⟩

@[simp] theorem plainOp_uWriteD (n : Nibble) : PlainOp (uWriteD n) :=
  ⟨_, _, rfl, decodeItem_uWriteD Config.default n, rfl⟩

@[simp] theorem plainOp_uDelay (n : Nat) : PlainOp (uDelay n) :=
  ⟨_, _, rfl, decodeItem_uDelay Config.default n, rfl⟩

@[simp] theorem plainOps_delays (n : Nat) : PlainOps (delays n) := by
  have hrep : PlainOps (List.replicate ((n - 1) / delayMax) (uDelay delayMax)) := by
    intro it hit
    rw [List.eq_of_mem_replicate hit]
    exact plainOp_uDelay delayMax
  simp [delays, hrep]

@[simp] theorem plainOps_seqNibble (c : Config) (n : Nibble) : PlainOps (seqNibble c n) := by
  simp [seqNibble, seqStrobe]

@[simp] theorem plainOps_seqTransaction (c : Config) (rs : Bool) (b : Byte) (w : Nat) :
    PlainOps (seqTransaction c rs b w) := by
  simp [seqTransaction, seqFrame]

@[simp] theorem plainOps_seqCmd (c : Config) (b : Byte) : PlainOps (seqCmd c b) :=
  plainOps_seqTransaction c false b (commandWait c b)

@[simp] theorem plainOps_seqChar (c : Config) (b : Byte) : PlainOps (seqChar c b) :=
  plainOps_seqTransaction c true b c.tChar

@[simp] theorem plainOps_seqSetCursor (c : Config) (row col : Byte) : PlainOps (seqSetCursor c row col) := by
  unfold seqSetCursor
  split <;> simp

@[simp] theorem plainOps_seqInit (c : Config) : PlainOps (seqInit c) := by
  simp [seqInit, initSegments]

/-- The FAULT that ends an expansion, where there is one (R96). -/
def faultTail (b : Bool) : List Item := if b then [uFault 1] else []

/-- A string's expansion: plain micro-ops, and a FAULT 1 exactly when it is unterminated (R96). -/
theorem seqString_form (c : Config) (s : List Byte) :
    ∃ l, PlainOps l ∧ seqString c s = l ++ faultTail (!terminated c.stringMode s) := by
  refine ⟨(payload c.stringMode s).flatMap (seqChar c), .flatMap (plainOps_seqChar c), ?_⟩
  cases h : terminated c.stringMode s <;> simp [seqString, faultTail, h]

/-- A positioned write keeps the form of its body, and drops the body's FAULT with the body (R103). -/
theorem seqAt_form (c : Config) (row col : Byte) {l : List Item} (hl : PlainOps l) (b : Bool) :
    ∃ m, PlainOps m ∧ seqAt c row col (l ++ faultTail b) =
      m ++ faultTail (b && (row == 1 || row == 2 || c.invalidRowSendsData)) := by
  by_cases hsent : row = 1 ∨ row = 2 ∨ c.invalidRowSendsData = true
  · have hflag : (row == 1 || row == 2 || c.invalidRowSendsData) = true := by simpa [or_assoc] using hsent
    exact ⟨seqSetCursor c row col ++ l, by simp [hl], by simp only [seqAt, if_pos hsent, hflag]; simp⟩
  · have hflag : (row == 1 || row == 2 || c.invalidRowSendsData) = false := by simpa [and_assoc] using hsent
    exact ⟨seqSetCursor c row col, by simp, by simp only [seqAt, if_neg hsent, hflag]; simp [faultTail]⟩

/-- A request's expansion: plain micro-ops, and a FAULT 1 exactly where an unterminated string is sent (R97). -/
theorem expand_request_form (c : Config) {i : Instr} (hi : isRequest i = true) :
    ∃ l, PlainOps l ∧ expand c i = l ++ faultTail (endsInFault c i) := by
  cases i with
  | lcdInit => exact ⟨seqInit c, plainOps_seqInit c, by simp [expand, endsInFault, faultTail]⟩
  | lcdCommand b => exact ⟨seqCmd c b, plainOps_seqCmd c b, by simp [expand, endsInFault, faultTail]⟩
  | lcdPrintChar b => exact ⟨seqChar c b, plainOps_seqChar c b, by simp [expand, endsInFault, faultTail]⟩
  | lcdPrintCharAt b row col =>
    have h := seqAt_form c row col (plainOps_seqChar c b) false
    rwa [faultTail, if_neg Bool.false_ne_true, List.append_nil] at h
  | lcdPrintString s => exact seqString_form c s
  | lcdPrintStringAt s row col =>
    obtain ⟨l, hl, hs⟩ := seqString_form c s
    rw [expand, hs]
    exact seqAt_form c row col hl _
  | _ => cases hi

/-- An entry of a request's expansion is the word of a plain micro-op, or of FAULT 1 (R87, R97). -/
theorem mem_expand_request {c : Config} {i : Instr} (hi : isRequest i = true) {it : Item} (hit : it ∈ expand c i) :
    ∃ w j, it = .uop w ∧ decodeUop w = .ok j ∧ (isPlain j = true ∨ j = .fault 1) := by
  obtain ⟨l, hl, hexp⟩ := expand_request_form c hi
  rw [hexp, List.mem_append] at hit
  rcases hit with hit | hit
  · obtain ⟨w, j, hw, hj, hp⟩ := hl it hit
    exact ⟨w, j, hw, hj, .inl hp⟩
  · have hfault : it = uFault 1 := by
      unfold faultTail at hit
      split at hit
      · exact List.mem_singleton.mp hit
      · cases hit
    exact ⟨_, _, hfault, decodeItem_uFault c 1, .inr rfl⟩

/-- Settles O36: the expansion's form says it of each entry. -/
theorem expansionsHoldDecodableMicroOps : Obligations.ExpansionsHoldDecodableMicroOps := by
  intro c i hi it hit
  obtain ⟨w, j, hw, hj, _⟩ := mem_expand_request hi hit
  exact ⟨w, j, hw, hj⟩

end Sys2Proof.Machine
end

section
/-! PROOF. The kinds of instruction, each with what exec does, and from it O10: every operation appends events of the
present and lets time pass, and the observer takes exactly the events appended. -/

namespace Sys2Proof.Machine

/-- The state a request is accepted in: init_count up by one for LCD_INIT (R31). -/
def State.countInit (s : State) (i : Instr) : State :=
  { s with initCount := s.initCount + if i = .lcdInit then 1 else 0 }

/-- Only LCD_INIT counts. -/
theorem State.countInit_of_ne (s : State) {i : Instr} (h : i ≠ .lcdInit) : s.countInit i = s := by
  simp [State.countInit, h]

/-- exec accepts a request with its expansion (R34, R97). -/
theorem exec_request {i : Instr} (hi : isRequest i = true) (s : State) :
    exec i s = .next ((s.countInit i).accept i (expand s.cfg i)) := by
  cases i with
  | lcdInit => rfl
  | lcdCommand | lcdPrintChar | lcdPrintCharAt | lcdPrintString | lcdPrintStringAt =>
    rw [State.countInit_of_ne s (by simp)]
    rfl
  | _ => cases hi

/-- exec raises a FAULT (R87). -/
theorem exec_fault (r : BitVec 24) (s : State) : exec (.fault r) s = .next (s.raiseFault r) := rfl

/-- A direction space with the pins of a list made outputs, one after the other (R39). -/
def outputPins (m : List Host.Cell) (pins : List (PortRef × Fin 8)) : List Host.Cell :=
  pins.foldl (fun m pin => Regs.setLevel m pin.1 pin.2 true) m

theorem State.foldl_configureAsOutput (s : State) (pins : List (PortRef × Fin 8)) :
    pins.foldl (fun u pin => u.configureAsOutput pin.1 pin.2) s = { s with ddrs := outputPins s.ddrs pins } := by
  induction pins generalizing s with
  | nil => rfl
  | cons pin pins ih => exact ih (s.configureAsOutput pin.1 pin.2)

/-- CFG_OUT makes outputs of the six pins of the handle (R82). -/
theorem exec_cfgOut (s : State) :
    exec .cfgOut s = .next (State.emit { s with ddrs := outputPins s.ddrs s.cfg.handle.pins } (.cfg s.t)).drawTime := by
  have hfold : exec .cfgOut s =
      .next ((s.cfg.handle.pins.foldl (fun u pin => u.configureAsOutput pin.1 pin.2) s).emit
        (.cfg (s.cfg.handle.pins.foldl (fun u pin => u.configureAsOutput pin.1 pin.2) s).t)).drawTime := rfl
  rw [hfold, State.foldl_configureAsOutput]

/-- An instruction is a request, a plain micro-op, a FAULT, or one that exec replaces by its expansion (R71, R74). -/
theorem exec_kinds (i : Instr) :
    isRequest i = true ∨ isPlain i = true ∨ (∃ r, i = .fault r) ∨
      ∀ s : State, exec i s = .next (s.push (expand s.cfg i)) := by
  cases i with
  | lcdInit | lcdCommand | lcdPrintChar | lcdPrintCharAt | lcdPrintString | lcdPrintStringAt => exact .inl rfl
  | cfgOut | setRs | setE | writeD | delay => exact .inr (.inl rfl)
  | fault r => exact .inr (.inr (.inl ⟨r, rfl⟩))
  | _ => exact .inr (.inr (.inr fun _ => rfl))

/-- A plain micro-op leaves the sequencer and the marks alone (R82 to R86). -/
theorem exec_plain_keeps {i : Instr} (hi : isPlain i = true) {s t : State} (h : exec i s = .next t) :
    t.cur = s.cur ∧ t.uq = s.uq ∧ t.upc = s.upc ∧ t.fault = s.fault := by
  cases i with
  | cfgOut => rw [exec_cfgOut] at h; cases h; simp
  | setRs | writeD | delay => cases h; simp
  | setE v => cases h; split <;> simp
  | _ => cases hi

/-- A decoded request is one of the six (R69). -/
theorem isRequest_of_decodeReq {r : Req} {i : Instr} (h : decodeReq r = .ok i) : isRequest i = true := by
  unfold decodeReq at h
  split at h <;> cases h <;> rfl

/-- `t` comes after `s`: the same parameters, time no earlier, more events, which stand in order between the two times,
and an observer that has taken those events and nothing else. -/
structure State.Extends (s t : State) : Prop where
  cfg : t.cfg = s.cfg
  time : s.t ≤ t.t
  events : ∃ es, t.trace = s.trace ++ es ∧ t.obs = s.obs.consumeAll s.cfg es ∧
    (es.map Event.time).Pairwise (· ≤ ·) ∧ ∀ e ∈ es, s.t ≤ e.time ∧ e.time ≤ t.t

/-- An operation that emits nothing. -/
theorem State.Extends.of_silent {s t : State} (hcfg : t.cfg = s.cfg) (htime : s.t ≤ t.t) (htrace : t.trace = s.trace)
    (hobs : t.obs = s.obs) : s.Extends t :=
  ⟨hcfg, htime, [], by simp [htrace], hobs, List.Pairwise.nil, by simp⟩

/-- An operation that emits one event of the present. -/
theorem State.Extends.of_event {s t : State} (e : Event) (he : e.time = s.t) (hcfg : t.cfg = s.cfg) (htime : t.t = s.t)
    (htrace : t.trace = s.trace ++ [e]) (hobs : t.obs = s.obs.consume s.cfg e) : s.Extends t :=
  ⟨hcfg, Nat.le_of_eq htime.symm, [e], htrace, hobs, List.pairwise_singleton .., by simp [he, htime]⟩

theorem State.Extends.trans {s t u : State} (h : s.Extends t) (k : t.Extends u) : s.Extends u := by
  obtain ⟨hcfg, htime, es, htrace, hobs, hsorted, hbounds⟩ := h
  obtain ⟨kcfg, ktime, fs, ktrace, kobs, ksorted, kbounds⟩ := k
  refine ⟨kcfg.trans hcfg, Nat.le_trans htime ktime, es ++ fs, ?_, ?_, ?_, ?_⟩
  · rw [ktrace, htrace, List.append_assoc]
  · rw [kobs, hobs, hcfg]
    exact (List.foldl_append ..).symm
  · rw [List.map_append, List.pairwise_append]
    refine ⟨hsorted, ksorted, ?_⟩
    simp only [List.forall_mem_map]
    exact fun e he f hf => Nat.le_trans (hbounds e he).2 (kbounds f hf).1
  · intro e he
    rcases List.mem_append.mp he with he | he
    · exact ⟨(hbounds e he).1, Nat.le_trans (hbounds e he).2 ktime⟩
    · exact ⟨Nat.le_trans htime (kbounds e he).1, (kbounds e he).2⟩

theorem State.extends_finish (s : State) : s.Extends s.finish := by
  rcases s.finish_cases with ⟨r, _, _, _, h⟩ | ⟨h, _⟩
  · rw [h]
    exact .of_event (.reqEnd s.t r) rfl rfl rfl rfl rfl
  · rw [h]
    exact .of_silent rfl (Nat.le_refl _) rfl rfl

theorem State.extends_drawTime (s : State) : s.Extends s.drawTime := .of_silent rfl (by simp) rfl rfl

theorem State.extends_accept (s : State) (r : Instr) (l : List Item) : s.Extends (s.accept r l) :=
  have hbegin : s.Extends (s.begin r l) := .of_event (.reqBegin s.t r) rfl rfl rfl rfl rfl
  hbegin.trans (s.begin r l).extends_finish

/-- A write of registers, an event of the present that is no latch, and a draw (R81). -/
theorem State.Extends.of_event_draw {s u : State} (e : Event) (he : e.time = s.t)
    (hobserver : s.obs.consume s.cfg e = s.obs) (hcfg : u.cfg = s.cfg) (htime : u.t = s.t) (htrace : u.trace = s.trace)
    (hobs : u.obs = s.obs) : s.Extends (u.emit e).drawTime := by
  have hemit : s.Extends (u.emit e) := .of_event e he hcfg htime (by simp [htrace]) (by simp [hobs, hobserver])
  exact hemit.trans (State.extends_drawTime _)

/-- SET_E emits its Pin event and, on a falling edge of a driven E, its Latch, which the observer takes (R54, R84). -/
theorem State.extends_setE {s t : State} {v : Bool} (h : exec (.setE v) s = .next t) : s.Extends t := by
  have hpin : s.Extends ((s.writePin s.cfg.handle.enPort s.cfg.handle.enBit v).emit (.pin s.t .e v)) :=
    .of_event (.pin s.t .e v) rfl rfl rfl rfl rfl
  have hlatch (u : State) : u.Extends u.latch := .of_event (.latch u.t u.sampleRs u.sampleD) rfl rfl rfl rfl rfl
  cases h
  split
  · exact (hpin.trans (hlatch _)).trans (State.extends_drawTime _)
  · exact hpin.trans (State.extends_drawTime _)

/-- Every instruction extends the state it is executed in. -/
theorem exec_extends {i : Instr} {s t : State} (h : exec i s = .next t) : s.Extends t := by
  rcases exec_kinds i with hi | hi | ⟨r, rfl⟩ | hi
  · rw [exec_request hi] at h
    cases h
    have hcount : s.Extends (s.countInit i) := .of_silent rfl (Nat.le_refl _) rfl rfl
    exact hcount.trans (State.extends_accept _ i _)
  · cases i with
    | cfgOut => rw [exec_cfgOut] at h; cases h; exact .of_event_draw (.cfg s.t) rfl rfl rfl rfl rfl rfl
    | setRs v => cases h; exact .of_event_draw (.pin s.t .rs v) rfl rfl rfl rfl rfl rfl
    | setE v => exact State.extends_setE h
    | writeD n => cases h; exact .of_event_draw (.data s.t n) rfl rfl rfl rfl rfl rfl
    | delay n => cases h; exact .of_silent rfl (Nat.le_add_right ..) rfl rfl
    | _ => cases hi
  · cases h
    exact .of_event (.fault s.t r) rfl rfl rfl rfl rfl
  · rw [hi] at h
    cases h
    exact .of_silent rfl (Nat.le_refl _) rfl rfl

/-- Every step extends the state it is taken in. -/
theorem step_extends {s t : State} (h : step s = .next t) : s.Extends t := by
  obtain ⟨_, hstep⟩ := step_cases h
  rcases hstep with ⟨it, rest, i, u, _, _, hu, rfl⟩ | ⟨q, qs, i, _, _, _, ht⟩ | ⟨q, qs, e, _, _, _, rfl⟩ | ⟨_, _, rfl⟩
  · have hpop : s.Extends (s.popItem it rest) := .of_silent rfl (Nat.le_refl _) rfl rfl
    exact (hpop.trans (exec_extends hu)).trans u.extends_finish
  · have harrive : s.Extends (s.hostArrive q qs) := .of_silent rfl (by simp) rfl rfl
    exact harrive.trans (exec_extends ht)
  · exact .of_silent rfl (by simp) rfl rfl
  · exact .of_silent rfl (Nat.le_refl _) rfl rfl

/-- Settles O10: the order of time and of traces is part of what a step extends. -/
theorem timeAndTraceOnlyGrow : Obligations.TimeAndTraceOnlyGrow := by
  intro s t h
  obtain ⟨hcfg, htime, es, htrace, _⟩ := step_extends h
  exact ⟨htime, ⟨es, htrace.symm⟩, hcfg⟩

end Sys2Proof.Machine
end

section
/-! PROOF. The pins of a handle and the register spaces: O2, O11, O12 and O1. -/

namespace Sys2Proof.Machine

/-! ## The pins of a handle -/

/-- H.d_bit[0..3] (R18). -/
def dataBits (h : Handle) : List (Fin 8) := [h.d4Bit, h.d5Bit, h.d6Bit, h.d7Bit]

theorem handle_pins_eq (h : Handle) :
    h.pins = (h.rsPort, h.rsBit) :: (h.enPort, h.enBit) :: (dataBits h).map (Prod.mk h.dPort) := rfl

theorem mem_dataPins_iff (h : Handle) (p : PortRef) (k : Fin 8) :
    (p, k) ∈ (dataBits h).map (Prod.mk h.dPort) ↔ p = h.dPort ∧ k ∈ dataBits h := by
  simp only [List.mem_map, Prod.mk.injEq]
  exact ⟨fun ⟨_, hmem, hp, hk⟩ => ⟨hp.symm, hk ▸ hmem⟩, fun ⟨hp, hk⟩ => ⟨k, hk, hp.symm, rfl⟩⟩

theorem nodup_dataBits_iff (h : Handle) :
    (dataBits h).Nodup ↔
      h.d4Bit ≠ h.d5Bit ∧ h.d4Bit ≠ h.d6Bit ∧ h.d4Bit ≠ h.d7Bit ∧ h.d5Bit ≠ h.d6Bit ∧ h.d5Bit ≠ h.d7Bit ∧
        h.d6Bit ≠ h.d7Bit := by
  simp [dataBits, and_assoc]

/-- A handle is well-formed iff its offsets are distinct, RS and E are different pins and neither is a data pin (R19). -/
theorem handle_wf_iff (h : Handle) :
    h.wf ↔ (dataBits h).Nodup ∧ ¬ (h.rsPort = h.enPort ∧ h.rsBit = h.enBit) ∧
      ¬ (h.rsPort = h.dPort ∧ h.rsBit ∈ dataBits h) ∧ ¬ (h.enPort = h.dPort ∧ h.enBit ∈ dataBits h) := by
  have hmap : ((dataBits h).map (Prod.mk h.dPort)).Nodup ↔ (dataBits h).Nodup := by
    simp only [List.Nodup, List.pairwise_map, ne_eq, Prod.mk.injEq, true_and]
  show (dataBits h).Nodup ∧ h.pins.Nodup ↔ _
  rw [handle_pins_eq, List.nodup_cons, List.nodup_cons, List.mem_cons, mem_dataPins_iff, mem_dataPins_iff, hmap, Prod.mk.injEq, not_or]
  exact ⟨fun ⟨hd, ⟨hrsE, hrsD⟩, heD, _⟩ => ⟨hd, hrsE, hrsD, heD⟩,
    fun ⟨hd, hrsE, hrsD, heD⟩ => ⟨hd, ⟨hrsE, hrsD⟩, heD, hd⟩⟩

/-- Settles O2: the marks of a launch decide its first step. -/
theorem illFormedHandleIsRefusedAtLaunch : Obligations.IllFormedHandleIsRefusedAtLaunch := by
  intro c q
  refine ⟨by rw [handle_wf_iff, nodup_dataBits_iff]; rfl, fun hill => ?_, fun hwf => if_pos hwf⟩
  have hmark : (State.launch c).refused = some .badHandle := if_neg hill
  have hfault : (State.launch c).fault = none := rfl
  simp only [step, hmark, hfault]

theorem getLsbD_dMask (h : Handle) (j : Fin 8) :
    (dMask h).getLsbD j.val = decide (j ∈ dataBits h) := by
  have hmask : dMask h = bitMask h.d4Bit ||| bitMask h.d5Bit ||| bitMask h.d6Bit ||| bitMask h.d7Bit := rfl
  simp only [hmask, BitVec.getLsbD_or, getLsbD_bitMask]
  simp [dataBits, Bool.or_assoc]

theorem getLsbD_nibbleBit_shiftLeft (n : Nibble) (i : Nat) (k j : Fin 8) :
    (nibbleBit n i <<< k.val).getLsbD j.val = (n.getLsbD i && decide (j = k)) := by
  unfold nibbleBit
  generalize n.getLsbD i = b
  revert b k j
  decide

theorem getLsbD_dValue (h : Handle) (n : Nibble) (j : Fin 8) :
    (dValue h n).getLsbD j.val =
      (n.getLsbD 0 && decide (j = h.d4Bit) || n.getLsbD 1 && decide (j = h.d5Bit) ||
        n.getLsbD 2 && decide (j = h.d6Bit) || n.getLsbD 3 && decide (j = h.d7Bit)) := by
  simp only [dValue, BitVec.getLsbD_or, getLsbD_nibbleBit_shiftLeft]

/-- The nibble read on the data lines is the one whose bits are there, bit i on line D(4+i) (R21). -/
theorem busNibble_eq {h : Handle} {b : Byte} {n : Nibble} (h4 : b.getLsbD h.d4Bit.val = n.getLsbD 0)
    (h5 : b.getLsbD h.d5Bit.val = n.getLsbD 1) (h6 : b.getLsbD h.d6Bit.val = n.getLsbD 2)
    (h7 : b.getLsbD h.d7Bit.val = n.getLsbD 3) : busNibble h b = n := by
  unfold busNibble
  rw [h4, h5, h6, h7]
  clear h4 h5 h6 h7
  revert n
  decide

/-- A write of a nibble at distinct offsets puts it on the data lines (R40). -/
theorem busNibble_maskWrite {h : Handle} (hwf : h.wf) (m : List Host.Cell) (n : Nibble) :
    busNibble h (Regs.read (Regs.maskWrite m h.dPort (dMask h) (dValue h n)) h.dPort) = n := by
  obtain ⟨h45, h46, h47, h56, h57, h67⟩ := (nodup_dataBits_iff h).mp ((handle_wf_iff h).mp hwf).1
  have hbit (k : Fin 8) (hk : k ∈ dataBits h) :
      (Regs.read (Regs.maskWrite m h.dPort (dMask h) (dValue h n)) h.dPort).getLsbD k.val =
        (dValue h n).getLsbD k.val := by
    have := Regs.bit_maskWrite m h.dPort h.dPort (dMask h) (dValue h n) k
    rwa [getLsbD_dMask, if_pos ⟨rfl, decide_eq_true hk⟩] at this
  apply busNibble_eq
  · rw [hbit _ (by simp [dataBits]), getLsbD_dValue]
    simp [h45, h46, h47]
  · rw [hbit _ (by simp [dataBits]), getLsbD_dValue]
    simp [h45.symm, h56, h57]
  · rw [hbit _ (by simp [dataBits]), getLsbD_dValue]
    simp [h46.symm, h56.symm, h67]
  · rw [hbit _ (by simp [dataBits]), getLsbD_dValue]
    simp [h47.symm, h57.symm, h67.symm]

/-- A write of the data lines leaves every other bit of the space as it is (R40). -/
theorem Regs.bit_maskWrite_dMask_of_not_data {h : Handle} {p : PortRef} {k : Fin 8}
    (hp : ¬ (p = h.dPort ∧ k ∈ dataBits h)) (m : List Host.Cell) (n : Nibble) :
    Regs.bit (Regs.maskWrite m h.dPort (dMask h) (dValue h n)) p k = Regs.bit m p k := by
  rw [Regs.bit_maskWrite, getLsbD_dMask, if_neg]
  simpa using hp

/-- Setting one bit leaves every other bit of the space as it is (R39). -/
theorem Regs.bit_setLevel_of_ne {p q : PortRef} {k j : Fin 8} (h : ¬ (q = p ∧ j = k)) (m : List Host.Cell) (v : Bool) :
    Regs.bit (Regs.setLevel m p k v) q j = Regs.bit m q j := by
  rw [Regs.bit_setLevel, if_neg h]

theorem isPin_iff (h : Handle) (p : PortRef) (k : Fin 8) :
    h.isPin p k ↔ (p = h.rsPort ∧ k = h.rsBit) ∨ (p = h.enPort ∧ k = h.enBit) ∨ (p = h.dPort ∧ k ∈ dataBits h) := by
  simp [Handle.isPin, dataBits]

theorem isPin_of_mem_pins {h : Handle} {p : PortRef} {k : Fin 8} (hp : (p, k) ∈ h.pins) : h.isPin p k := by
  rw [isPin_iff]
  rwa [handle_pins_eq, List.mem_cons, List.mem_cons, mem_dataPins_iff, Prod.mk.injEq, Prod.mk.injEq] at hp

/-- Making pins outputs leaves the other direction bits as they are (R39). -/
theorem bit_outputPins_of_not_mem {pins : List (PortRef × Fin 8)} {p : PortRef} {k : Fin 8} (hp : (p, k) ∉ pins)
    (m : List Host.Cell) : Regs.bit (outputPins m pins) p k = Regs.bit m p k := by
  induction pins generalizing m with
  | nil => rfl
  | cons pin pins ih =>
    obtain ⟨hne, hmem⟩ := not_or.mp (fun h => hp (List.mem_cons.mpr h))
    have hpin : ¬ (p = pin.1 ∧ k = pin.2) := fun h => hne (Prod.ext h.1 h.2)
    exact (ih hmem _).trans (Regs.bit_setLevel_of_ne hpin m true)

/-- Making pins outputs keeps the canonical form. -/
theorem outputPins_keeps_wf {m : List Host.Cell} (hm : Regs.wf m) (pins : List (PortRef × Fin 8)) :
    Regs.wf (outputPins m pins) := by
  induction pins generalizing m with
  | nil => exact hm
  | cons pin pins ih => exact ih (Regs.setLevel_keeps_wf hm ..)

/-! ## What writes a register -/

/-- An instruction that changes a register is one of the four micro-ops that write pins (R82 to R85). -/
theorem exec_registers {i : Instr} {s t : State} (h : exec i s = .next t) :
    (t.ports = s.ports ∧ t.ddrs = s.ddrs) ∨
      (i = .cfgOut ∧ t.ports = s.ports ∧ t.ddrs = outputPins s.ddrs s.cfg.handle.pins) ∨
      (∃ v, i = .setRs v ∧ t.ddrs = s.ddrs ∧
        t.ports = Regs.setLevel s.ports s.cfg.handle.rsPort s.cfg.handle.rsBit v) ∨
      (∃ v, i = .setE v ∧ t.ddrs = s.ddrs ∧
        t.ports = Regs.setLevel s.ports s.cfg.handle.enPort s.cfg.handle.enBit v) ∨
      (∃ n, i = .writeD n ∧ t.ddrs = s.ddrs ∧
        t.ports = Regs.maskWrite s.ports s.cfg.handle.dPort (dMask s.cfg.handle) (dValue s.cfg.handle n)) := by
  rcases exec_kinds i with hi | hi | ⟨r, rfl⟩ | hi
  · rw [exec_request hi] at h
    cases h
    exact .inl ⟨State.accept_ports .., State.accept_ddrs ..⟩
  · cases i with
    | cfgOut => rw [exec_cfgOut] at h; cases h; exact .inr (.inl ⟨rfl, rfl, rfl⟩)
    | setRs v => cases h; exact .inr (.inr (.inl ⟨v, rfl, rfl, rfl⟩))
    | setE v => cases h; refine .inr (.inr (.inr (.inl ⟨v, rfl, ?_⟩))); split <;> exact ⟨rfl, rfl⟩
    | writeD n => cases h; exact .inr (.inr (.inr (.inr ⟨n, rfl, rfl, rfl⟩)))
    | delay n => cases h; exact .inl ⟨rfl, rfl⟩
    | _ => cases hi
  · cases h
    exact .inl ⟨rfl, rfl⟩
  · rw [hi] at h
    cases h
    exact .inl ⟨rfl, rfl⟩

/-- A step that changes a register executes the head of the pending list: the host writes none. -/
theorem step_registers {s t : State} (h : step s = .next t) :
    (t.ports = s.ports ∧ t.ddrs = s.ddrs) ∨
      ∃ it rest i u, s.uq = it :: rest ∧ decodeItem s.cfg it = .ok i ∧ exec i (s.popItem it rest) = .next u ∧
        t.ports = u.ports ∧ t.ddrs = u.ddrs := by
  obtain ⟨_, hstep⟩ := step_cases h
  rcases hstep with ⟨it, rest, i, u, huq, hi, hu, rfl⟩ | ⟨q, qs, i, _, _, hi, ht⟩ | ⟨q, qs, e, _, _, _, rfl⟩ |
    ⟨_, _, rfl⟩
  · exact .inr ⟨it, rest, i, u, huq, hi, hu, u.finish_ports, u.finish_ddrs⟩
  · rw [exec_request (isRequest_of_decodeReq hi)] at ht
    cases ht
    exact .inl ⟨State.accept_ports .., State.accept_ddrs ..⟩
  · exact .inl ⟨rfl, rfl⟩
  · exact .inl ⟨rfl, rfl⟩

/-- Settles O11: of the instructions that write a register, only CFG_OUT writes the direction space. -/
theorem onlyCfgOutWritesDirections : Obligations.OnlyCfgOutWritesDirections := by
  intro s t h hne
  rcases step_registers h with ⟨_, hddrs⟩ | ⟨it, rest, i, u, huq, hi, hu, _, hddrs⟩
  · exact absurd hddrs hne
  · rcases exec_registers hu with ⟨_, k⟩ | ⟨rfl, _⟩ | ⟨v, _, k, _⟩ | ⟨v, _, k, _⟩ | ⟨n, _, k, _⟩
    · exact absurd (hddrs.trans k) hne
    · exact ⟨it, rest, huq, hi⟩
    all_goals exact absurd (hddrs.trans k) hne

/-- An instruction leaves every bit that is not one of the six pins as it is (R23). -/
theorem exec_keeps_other_bits {i : Instr} {s t : State} (h : exec i s = .next t) {p : PortRef} {k : Fin 8}
    (hp : ¬ s.cfg.handle.isPin p k) :
    Regs.bit t.ports p k = Regs.bit s.ports p k ∧ Regs.bit t.ddrs p k = Regs.bit s.ddrs p k := by
  obtain ⟨hrs, he, hd⟩ : _ ∧ _ ∧ _ := by simpa only [isPin_iff, not_or] using hp
  rcases exec_registers h with ⟨hports, hddrs⟩ | ⟨_, hports, hddrs⟩ | ⟨v, _, hddrs, hports⟩ | ⟨v, _, hddrs, hports⟩ |
    ⟨n, _, hddrs, hports⟩ <;> rw [hports, hddrs]
  · exact ⟨rfl, rfl⟩
  · exact ⟨rfl, bit_outputPins_of_not_mem (fun hmem => hp (isPin_of_mem_pins hmem)) _⟩
  · exact ⟨Regs.bit_setLevel_of_ne hrs .., rfl⟩
  · exact ⟨Regs.bit_setLevel_of_ne he .., rfl⟩
  · exact ⟨Regs.bit_maskWrite_dMask_of_not_data hd .., rfl⟩

/-- Settles O12: every register a step writes is written by an instruction, at pins alone. -/
theorem otherPortBitsAreNeverTouched : Obligations.OtherPortBitsAreNeverTouched := by
  intro s t p k h hp
  rcases step_registers h with ⟨hports, hddrs⟩ | ⟨it, rest, i, u, _, _, hu, hports, hddrs⟩ <;> rw [hports, hddrs]
  · exact ⟨rfl, rfl⟩
  · exact exec_keeps_other_bits (s := s.popItem it rest) hu hp

/-! ## The lines at launch -/

/-- Lines put at well-formed pins are read back there (R36). -/
theorem bits_placeLines {h : Handle} (hwf : h.wf) (m : List Host.Cell) (l : Lines) :
    Regs.bit (placeLines m h l) h.rsPort h.rsBit = l.rs ∧ Regs.bit (placeLines m h l) h.enPort h.enBit = l.e ∧
      busNibble h (Regs.read (placeLines m h l) h.dPort) = l.d := by
  obtain ⟨_, hrsE, hrsD, heD⟩ := (handle_wf_iff h).mp hwf
  refine ⟨?_, ?_, busNibble_maskWrite hwf _ l.d⟩
  · rw [placeLines, Regs.bit_maskWrite_dMask_of_not_data hrsD, Regs.bit_setLevel_of_ne hrsE, Regs.bit_setLevel,
      if_pos ⟨rfl, rfl⟩]
  · rw [placeLines, Regs.bit_maskWrite_dMask_of_not_data heD, Regs.bit_setLevel, if_pos ⟨rfl, rfl⟩]

/-- Settles O1: the lines by the placement at launch, the rest of the table by the definition of the launch. -/
theorem launchHoldsTheResetTable : Obligations.LaunchHoldsTheResetTable := by
  refine ⟨fun c hwf => ?_, by decide⟩
  obtain ⟨hrs, he, hd⟩ := bits_placeLines hwf [] c.resetOut
  obtain ⟨krs, ke, kd⟩ := bits_placeLines hwf [] c.resetDir
  exact ⟨hrs, he, hd, krs, ke, kd, rfl, rfl, rfl, rfl, rfl, rfl, if_pos hwf, rfl, rfl, rfl, rfl, rfl, rfl, rfl, rfl, rfl,
    rfl, fun _ => rfl⟩

end Sys2Proof.Machine
end

section
/-! PROOF. The moves of R34 as equations of step, and the statements about single moves: O3, O4, O5 and O25. -/

namespace Sys2Proof.Machine

theorem step_of_fault {s : State} {r : BitVec 24} (h : s.fault = some r) : step s = .fault (.stopped r) := by
  simp only [step, h]

theorem step_of_refused {s : State} {m : RefuseMark} (hf : s.fault = none) (hr : s.refused = some m) :
    step s = .refused (.stopped m) := by
  simp only [step, hf, hr]

/-- The engine move, for an entry that decodes: it is executed off the list, and then the completion check (R34). -/
theorem step_engine {s : State} {it : Item} {rest : List Item} {i : Instr} {u : State} (hs : s.safe)
    (huq : s.uq = it :: rest) (hi : decodeItem s.cfg it = .ok i) (hu : exec i (s.popItem it rest) = .next u) :
    step s = .next u.finish := by
  obtain ⟨hf, hr⟩ := hs
  simp only [step, hf, hr, huq, engineMove, hi, hu]

/-- An idle engine with no request to come waits (R138). -/
theorem step_wait {s : State} (hs : s.safe) (hidle : s.idle) (hq : s.hostq = []) : step s = .next s := by
  obtain ⟨hf, hr⟩ := hs
  obtain ⟨huq, hcur⟩ := hidle
  simp only [step, hf, hr, huq, hcur, hq]

/-- The host move, for a request that decodes: it is executed where the host has arrived (R34). -/
theorem step_host {s : State} {q : HostReq} {qs : List HostReq} {i : Instr} (hs : s.safe) (hidle : s.idle)
    (hq : s.hostq = q :: qs) (hi : decodeReq { word := q.word, s := (s.hostArrive q qs).listOperand q } = .ok i) :
    step s = exec i (s.hostArrive q qs) := by
  obtain ⟨hf, hr⟩ := hs
  obtain ⟨huq, hcur⟩ := hidle
  simp only [step, hf, hr, huq, hcur, hq, hostMove, hi]

/-- Settles O3: a mark decides the step. -/
theorem markedStateHasNoMove : Obligations.MarkedStateHasNoMove :=
  fun _ => ⟨fun _ h => step_of_fault h, fun _ hf hr => step_of_refused hf hr, fun _ h => (step_cases h).1⟩

/-- Settles O4: the engine move, with popItem and finish written out. -/
theorem stepRunsTheDecodedHead : Obligations.StepRunsTheDecodedHead := by
  intro s it rest i hs huq hi _
  obtain ⟨u, hu⟩ := exec_next i (s.popItem it rest)
  refine ⟨u, by cases it <;> exact hu, ?_⟩
  rw [step_engine hs huq hi hu, State.finish]
  cases hcur : u.cur with
  | some r => simp only
  | none => simp only [ite_self]

/-- Settles O5: the host move, with the list operand written out. -/
theorem stepAcceptsTheDecodedRequest : Obligations.StepAcceptsTheDecodedRequest := by
  intro s hs hidle
  refine ⟨step_wait hs hidle, fun q qs i hq hi => ?_⟩
  apply step_host hs hidle hq
  simpa [State.listOperand, usesString] using hi

/-- What acceptance leaves current and in the trace: an empty expansion completes at once (R34, R96). -/
theorem State.accept_begins (s : State) (r : Instr) (l : List Item) (h : s.fault = none) :
    if l = [] then (s.accept r l).cur = none ∧ (s.accept r l).trace = s.trace ++ [.reqBegin s.t r, .reqEnd s.t r]
    else (s.accept r l).cur = some r ∧ (s.accept r l).trace = s.trace ++ [.reqBegin s.t r] := by
  cases l with
  | nil => simp [State.accept_nil s r h]
  | cons it l => simp [State.accept_cons]

/-- Settles O25: exec of a request is acceptance of its expansion. -/
theorem requestsAreAccepted : Obligations.RequestsAreAccepted := by
  intro s i hi hf
  have hbegins := (s.countInit i).accept_begins i (expand s.cfg i) hf
  exact ⟨_, exec_request hi s, State.accept_uq .., State.accept_upc .., hbegins, State.accept_initCount ..,
    State.accept_t .., State.accept_ports .., State.accept_ddrs .., State.accept_obs .., State.accept_mem ..,
    State.accept_hostq .., State.accept_fault .., State.accept_refused .., State.accept_draws .., State.accept_cfg ..⟩

end Sys2Proof.Machine
end

section
/-! PROOF. The invariant, O7 and O8: each of its parts is kept by every step. The observer and the trace follow from what
a step extends; the sequencer and the marks from the moves that a state with the invariant can make. -/

namespace Sys2Proof.Machine

/-! ## The controller's memory in canonical form -/

/-- The DDRAM is in canonical form, within 0x00..0x7F (R42, R56). -/
def Observer.canonical (o : Observer) : Prop := Cells.wf o.ddram ∧ ∀ x ∈ o.ddram, x.1 < 128

theorem Observer.canonical_of_ddram_eq {o p : Observer} (h : p.ddram = o.ddram) (ho : o.canonical) : p.canonical := by
  rwa [Observer.canonical, h]

theorem Observer.canonical_of_ddram_nil {o : Observer} (h : o.ddram = []) : o.canonical := by
  rw [Observer.canonical, h]
  simp

theorem Observer.canonical_lose (o : Observer) : o.lose.canonical := canonical_of_ddram_nil rfl

theorem Observer.blindPulse_ddram (c : Config) (o : Observer) (t : Nat) : (o.blindPulse c t).ddram = o.ddram := by
  unfold Observer.blindPulse
  split
  · rfl
  · split
    · rfl
    · split <;> rfl

theorem Observer.latchUnknown_ddram (c : Config) (o : Observer) (t : Nat) (rs : Bool) (n : Nibble) :
    (o.latchUnknown c t rs n).ddram = o.ddram := by
  unfold Observer.latchUnknown
  split
  · exact o.blindPulse_ddram c t
  · rfl

theorem Observer.latchM8_keeps_canonical {c : Config} {o : Observer} (ho : o.canonical) (t : Nat) (rs : Bool)
    (n : Nibble) : (o.latchM8 c t rs n).canonical := by
  unfold Observer.latchM8
  split
  · exact ho
  · split
    · exact ho
    · exact canonical_of_ddram_nil rfl

/-- Clear fills the DDRAM, an undefined byte loses it, every other instruction leaves it (R62). -/
theorem Observer.execInstruction_keeps_canonical {c : Config} {o : Observer} (ho : o.canonical) (b : Byte) (t : Nat) :
    (o.execInstruction c b t).canonical := by
  unfold Observer.execInstruction
  split
  case h_1 => exact o.canonical_lose
  case h_2 => exact ⟨Cells.fill_wf 0x20, by simp [Cells.fill]⟩
  case h_6 =>
    split
    · exact ho
    · split <;> exact ho
  all_goals exact ho

/-- A character is written at an address of seven bits, or at no known one (R63). -/
theorem Observer.execCharacter_keeps_canonical {c : Config} {o : Observer} (ho : o.canonical) (b : Byte) (t : Nat) :
    (o.execCharacter c b t).canonical := by
  unfold Observer.execCharacter
  split
  · next a _ =>
    refine ⟨Cells.write_keeps_wf ho.1 a.toNat b, fun x hx => ?_⟩
    rcases Cells.mem_write hx with rfl | hx
    · exact a.isLt
    · exact ho.2 x hx
  · exact ho
  · exact canonical_of_ddram_nil rfl

theorem Observer.latchChecked_keeps_canonical {c : Config} {o : Observer} (ho : o.canonical) (t : Nat) (rs : Bool)
    (n : Nibble) : (o.latchChecked c t rs n).canonical := by
  unfold Observer.latchChecked
  split
  · exact canonical_of_ddram_eq (latchUnknown_ddram ..) ho
  · exact latchM8_keeps_canonical ho t rs n
  · exact ho
  · unfold Observer.latchLow Observer.execByte
    split
    · split
      · exact execCharacter_keeps_canonical (o := { o with mode := .m4h }) ho _ t
      · exact execInstruction_keeps_canonical (o := { o with mode := .m4h }) ho _ t
    · exact canonical_of_ddram_eq (latchUnknown_ddram ..) o.canonical_lose

theorem Observer.latch_keeps_canonical {c : Config} {o : Observer} (ho : o.canonical) (t : Nat) (rs : Option Bool)
    (n : Option Nibble) : (o.latch c t rs n).canonical := by
  rcases o.latch_cases c t rs n with h | ⟨r, x, _, _, h | h⟩ <;> rw [h]
  · exact o.canonical_lose
  · exact canonical_of_ddram_eq (latchUnknown_ddram ..) o.canonical_lose
  · exact latchChecked_keeps_canonical ho t r x

/-- Whatever the trace, the observer it makes of a canonical one is canonical. -/
theorem Observer.consumeAll_keeps_canonical {c : Config} {o : Observer} (ho : o.canonical) (es : List Event) :
    (o.consumeAll c es).canonical := by
  induction es generalizing o with
  | nil => exact ho
  | cons e es ih =>
    apply ih
    cases e with
    | latch t rs n => exact latch_keeps_canonical ho t rs n
    | _ => exact ho

theorem Observer.powerOn_canonical : Observer.powerOn.canonical := canonical_of_ddram_nil rfl

/-! ## The observer and the trace -/

theorem State.Extends.observerFollowsTrace {s t : State} (h : s.Extends t) (hs : s.observerFollowsTrace) :
    t.observerFollowsTrace := by
  obtain ⟨hcfg, _, es, htrace, hobs, _⟩ := h
  unfold State.observerFollowsTrace at hs ⊢
  rw [hobs, hs, htrace, hcfg]
  exact (List.foldl_append ..).symm

theorem State.Extends.traceOrdered {s t : State} (h : s.Extends t) (hs : s.traceOrdered) : t.traceOrdered := by
  obtain ⟨hsorted, hpast⟩ := hs
  obtain ⟨_, htime, es, htrace, _, hnew, hbounds⟩ := h
  unfold State.traceOrdered
  rw [htrace, List.map_append, List.pairwise_append]
  refine ⟨⟨hsorted, hnew, ?_⟩, ?_⟩
  · simp only [List.forall_mem_map]
    exact fun e he f hf => Nat.le_trans (hpast e he) (hbounds f hf).1
  · intro e he
    rcases List.mem_append.mp he with he | he
    · exact Nat.le_trans (hpast e he) htime
    · exact (hbounds e he).2

/-! ## The memories -/

/-- An instruction keeps the register spaces in canonical form. -/
theorem exec_keeps_regs_wf {i : Instr} {s t : State} (h : exec i s = .next t) (hports : Regs.wf s.ports)
    (hddrs : Regs.wf s.ddrs) : Regs.wf t.ports ∧ Regs.wf t.ddrs := by
  rcases exec_registers h with ⟨kports, kddrs⟩ | ⟨_, kports, kddrs⟩ | ⟨v, _, kddrs, kports⟩ | ⟨v, _, kddrs, kports⟩ |
    ⟨n, _, kddrs, kports⟩ <;> rw [kports, kddrs]
  · exact ⟨hports, hddrs⟩
  · exact ⟨hports, outputPins_keeps_wf hddrs _⟩
  · exact ⟨Regs.setLevel_keeps_wf hports .., hddrs⟩
  · exact ⟨Regs.setLevel_keeps_wf hports .., hddrs⟩
  · exact ⟨Regs.maskWrite_keeps_wf hports .., hddrs⟩

theorem step_keeps_regs_wf {s t : State} (h : step s = .next t) (hports : Regs.wf s.ports) (hddrs : Regs.wf s.ddrs) :
    Regs.wf t.ports ∧ Regs.wf t.ddrs := by
  rcases step_registers h with ⟨kports, kddrs⟩ | ⟨it, rest, i, u, _, _, hu, kports, kddrs⟩ <;> rw [kports, kddrs]
  · exact ⟨hports, hddrs⟩
  · exact exec_keeps_regs_wf (s := s.popItem it rest) hu hports hddrs

/-- A step leaves the caller's memory as it is, but for the stores the host makes as it arrives (R41, R48). -/
theorem step_mem {s t : State} (h : step s = .next t) : ∃ stores, t.mem = Cells.writeAll s.mem stores := by
  obtain ⟨_, hstep⟩ := step_cases h
  rcases hstep with ⟨it, rest, i, u, _, _, hu, rfl⟩ | ⟨q, qs, i, _, _, _, ht⟩ | ⟨q, qs, e, _, _, _, rfl⟩ | ⟨_, _, rfl⟩
  · obtain ⟨_, hmem, _, _⟩ := exec_keeps hu
    exact ⟨[], u.finish_mem.trans hmem⟩
  · obtain ⟨_, hmem, _, _⟩ := exec_keeps ht
    exact ⟨q.stores, hmem⟩
  · exact ⟨q.stores, rfl⟩
  · exact ⟨[], rfl⟩

/-! ## The moves of a state with the invariant -/

/-- What a step does in a state with the invariant: the head of the pending list is a plain micro-op or FAULT 1 (R27,
R34). -/
inductive InvMove (s : State) : State → Prop where
  | plain {it : Item} {rest : List Item} {j : Instr} {u : State} (huq : s.uq = it :: rest)
      (hj : decodeItem s.cfg it = .ok j) (hplain : isPlain j = true) (hu : exec j (s.popItem it rest) = .next u) :
      InvMove s u.finish
  | fault {it : Item} {rest : List Item} (huq : s.uq = it :: rest) (hj : decodeItem s.cfg it = .ok (.fault 1)) :
      InvMove s ((s.popItem it rest).raiseFault 1)
  | accept (q : HostReq) (qs : List HostReq) {i : Instr} (hidle : s.idle) (hi : isRequest i = true) :
      InvMove s (((s.hostArrive q qs).countInit i).accept i (expand s.cfg i))
  | refuse (q : HostReq) (qs : List HostReq) (hidle : s.idle) : InvMove s ((s.hostArrive q qs).refuse .badRequest)
  | wait : InvMove s s

/-- The head of a pending list that follows the current request: an entry of its expansion, with the rest after it. -/
theorem State.sequencerOk.head {s : State} (h : s.sequencerOk) (hf : s.fault = none) {it : Item} {rest : List Item}
    (huq : s.uq = it :: rest) :
    ∃ r, s.cur = some r ∧ isRequest r = true ∧ it ∈ expand s.cfg r ∧ rest = (expand s.cfg r).drop (s.upc + 1) := by
  obtain ⟨hnone, hsome⟩ := h
  cases hcur : s.cur with
  | none => exact absurd (hnone hf hcur) (by simp [huq])
  | some r =>
    obtain ⟨hr, hpending⟩ := hsome r hcur
    obtain ⟨_, hdrop⟩ := hpending hf
    rw [huq] at hdrop
    refine ⟨r, rfl, hr, List.mem_of_mem_drop (hdrop ▸ List.mem_cons_self), ?_⟩
    rw [← List.tail_drop, ← hdrop, List.tail_cons]

/-- The step of a state with the invariant is one of its moves. -/
theorem State.Inv.move {s t : State} (hs : s.Inv) (h : step s = .next t) : InvMove s t := by
  obtain ⟨⟨hf, _⟩, hstep⟩ := step_cases h
  rcases hstep with ⟨it, rest, i, u, huq, hi, hu, rfl⟩ | ⟨q, qs, i, hidle, _, hi, ht⟩ | ⟨q, qs, e, hidle, _, _, rfl⟩ |
    ⟨_, _, rfl⟩
  · obtain ⟨r, _, hr, hmem, _⟩ := hs.sequencer.head hf huq
    obtain ⟨w, j, rfl, hj, hkind⟩ := mem_expand_request hr hmem
    obtain rfl : i = j := Except.ok.inj (hi.symm.trans hj)
    rcases hkind with hplain | rfl
    · exact .plain huq hi hplain hu
    · cases hu
      exact .fault huq hi
  · have hrequest := isRequest_of_decodeReq hi
    rw [exec_request hrequest] at ht
    cases ht
    exact .accept q qs hidle hrequest
  · exact .refuse q qs hidle
  · exact .wait

/-- After a plain micro-op the pending list is again the current request's expansion from the index on, or the request is
complete (R27, R28, R34). -/
theorem sequencerOk_finish {s u : State} {it : Item} {rest : List Item} {j : Instr} (hs : s.sequencerOk)
    (hf : s.fault = none) (huq : s.uq = it :: rest) (hplain : isPlain j = true) (hu : exec j (s.popItem it rest) = .next u) :
    u.finish.sequencerOk := by
  obtain ⟨r, hcur, hr, hmem, hrest⟩ := hs.head hf huq
  obtain ⟨w, _, rfl, _⟩ := mem_expand_request hr hmem
  obtain ⟨ucur, uuq, uupc, ufault⟩ := exec_plain_keeps hplain hu
  obtain ⟨ucfg, _⟩ := exec_keeps hu
  have hcur' : u.cur = some r := ucur.trans hcur
  have huq' : u.uq = (expand s.cfg r).drop (s.upc + 1) := uuq.trans hrest
  rcases u.finish_cases with ⟨_, hnil, _, _, hfin⟩ | ⟨hfin, hpending⟩ <;> rw [hfin]
  · exact ⟨fun _ _ => hnil, nofun⟩
  · have hne : u.uq ≠ [] := fun hnil => hpending ⟨hnil, ufault.trans hf, by simp [hcur']⟩
    refine ⟨fun _ hnone => absurd hnone (by simp [hcur']), fun r' hr' => ?_⟩
    obtain rfl : r = r' := Option.some.inj (hcur'.symm.trans hr')
    have hlt : s.upc + 1 < (expand s.cfg r).length := by
      rw [huq'] at hne
      simpa using hne
    rw [ucfg, uupc]
    exact ⟨hr, fun _ => ⟨hlt, huq'⟩⟩

/-- After acceptance the whole expansion is pending, or the request is complete (R34). -/
theorem sequencerOk_accept {s : State} (hf : s.fault = none) {i : Instr} (hi : isRequest i = true) :
    (s.accept i (expand s.cfg i)).sequencerOk := by
  have hbegins := s.accept_begins i (expand s.cfg i) hf
  by_cases hnil : expand s.cfg i = []
  · obtain ⟨hcur, _⟩ := if_pos hnil ▸ hbegins
    exact ⟨fun _ _ => by simp [hnil], fun r hr => absurd (hcur.symm.trans hr) nofun⟩
  · obtain ⟨hcur, _⟩ := if_neg hnil ▸ hbegins
    refine ⟨fun _ hnone => absurd (hcur.symm.trans hnone) nofun, fun r hr => ?_⟩
    obtain rfl : i = r := Option.some.inj (hcur.symm.trans hr)
    exact ⟨hi, fun _ => by simpa using List.length_pos_iff.mpr hnil⟩

/-! ## The parts of the invariant, and the invariant -/

/-- A step keeps what is pending to the current request's expansion. -/
theorem State.Inv.move_sequencerOk {s t : State} (hs : s.Inv) (hsafe : s.safe) (h : InvMove s t) : t.sequencerOk := by
  cases h with
  | plain huq hj hplain hu => exact sequencerOk_finish hs.sequencer hsafe.1 huq hplain hu
  | @fault it rest huq _ =>
    obtain ⟨r, hcur, hr, _⟩ := hs.sequencer.head hsafe.1 huq
    refine ⟨nofun, fun r' hr' => ?_⟩
    obtain rfl : r = r' := Option.some.inj (hcur.symm.trans hr')
    exact ⟨hr, nofun⟩
  | accept q qs hidle hi => exact sequencerOk_accept (s := (s.hostArrive q qs).countInit _) hsafe.1 hi
  | refuse q qs hidle => exact ⟨fun _ _ => hidle.1, fun r hr => absurd (hidle.2.symm.trans hr) nofun⟩
  | wait => exact hs.sequencer

/-- A state without marks whose handle is well-formed has its marks right. -/
theorem marksOk_of_safe {s : State} (h : s.safe) (hwf : s.cfg.handle.wf) : s.marksOk := by
  obtain ⟨hf, hr⟩ := h
  exact ⟨.inl hf, fun hne => absurd hr hne, by simp [hr, hwf]⟩

/-- A step that answers a next state is taken with a well-formed handle: any other is refused at launch (R19). -/
theorem State.marksOk.handle_wf {s : State} (h : s.marksOk) (hsafe : s.safe) : s.cfg.handle.wf := by
  obtain ⟨_, _, hbad⟩ := h
  exact Decidable.of_not_not fun hill => absurd (hsafe.2.symm.trans (hbad.mpr hill)) nofun

/-- A step keeps the marks right. -/
theorem State.Inv.move_marksOk {s t : State} (hs : s.Inv) (hsafe : s.safe) (h : InvMove s t) : t.marksOk := by
  have hwf := hs.marks.handle_wf hsafe
  obtain ⟨hf, hr⟩ := hsafe
  cases h with
  | @plain it rest j u huq hj hplain hu =>
    obtain ⟨_, _, _, ufault⟩ := exec_plain_keeps hplain hu
    obtain ⟨ucfg, _, _, urefused⟩ := exec_keeps hu
    exact marksOk_of_safe ⟨by simp [ufault, hf], by simp [urefused, hr]⟩ (by rw [State.finish_cfg, ucfg]; exact hwf)
  | fault huq hj => exact ⟨.inr ⟨rfl, rfl⟩, fun hne => absurd hr hne, by simp [hr, hwf]⟩
  | accept q qs hidle hi =>
    exact marksOk_of_safe ⟨(State.accept_fault ..).trans hf, (State.accept_refused ..).trans hr⟩
      (by rw [State.accept_cfg]; exact hwf)
  | refuse q qs hidle => exact ⟨.inl hf, fun _ => ⟨hidle.1, hidle.2, hf⟩, by simp [hwf]⟩
  | wait => exact hs.marks

/-- The observer's memory needs no argument of its own: it is what the trace makes of the power-on observer. -/
theorem memoryCanonical_of_parts {s : State} (hregs : Regs.wf s.ports ∧ Regs.wf s.ddrs) (hmem : Cells.wf s.mem)
    (hobs : s.observerFollowsTrace) : s.memoryCanonical := by
  have hcanonical : s.obs.canonical := by
    rw [hobs]
    exact Observer.consumeAll_keeps_canonical Observer.powerOn_canonical s.trace
  exact ⟨hregs.1, hregs.2, hmem, hcanonical.1, hcanonical.2⟩

/-- Settles O7: part by part. -/
theorem stepKeepsInv : Obligations.StepKeepsInv := by
  intro s t hs h
  have hsafe : s.safe := (step_cases h).1
  have hobserver := (step_extends h).observerFollowsTrace hs.observer
  obtain ⟨hports, hddrs, hmem, _⟩ := hs.memory
  obtain ⟨stores, hstores⟩ := step_mem h
  exact {
    memory := memoryCanonical_of_parts (step_keeps_regs_wf h hports hddrs)
      (hstores ▸ Cells.writeAll_keeps_wf hmem stores) hobserver
    observer := hobserver
    trace := (step_extends h).traceOrdered hs.trace
    sequencer := hs.move_sequencerOk hsafe (hs.move h)
    marks := hs.move_marksOk hsafe (hs.move h) }

theorem placeLines_keeps_wf {m : List Host.Cell} (hm : Regs.wf m) (h : Handle) (l : Lines) :
    Regs.wf (placeLines m h l) :=
  Regs.maskWrite_keeps_wf (Regs.setLevel_keeps_wf (Regs.setLevel_keeps_wf hm ..) ..) ..

/-- The mark of a launch stands exactly for an ill-formed handle (R19). -/
theorem launch_marksOk (c : Config) (q : List HostReq) : State.marksOk { State.launch c with hostq := q } := by
  refine ⟨.inl rfl, fun _ => ⟨rfl, rfl, rfl⟩, ?_⟩
  show (if c.handle.wf then none else some RefuseMark.badHandle) = some .badHandle ↔ ¬ c.handle.wf
  simp

/-- A launch has the invariant, whatever its handle. -/
theorem launch_inv (c : Config) (q : List HostReq) : State.Inv { State.launch c with hostq := q } := by
  have hnil : Regs.wf [] := ⟨List.Pairwise.nil, nofun⟩
  exact {
    memory := memoryCanonical_of_parts ⟨placeLines_keeps_wf hnil .., placeLines_keeps_wf hnil ..⟩ List.Pairwise.nil rfl
    observer := rfl
    trace := ⟨List.Pairwise.nil, nofun⟩
    sequencer := ⟨fun _ _ => rfl, nofun⟩
    marks := launch_marksOk c q }

/-- Settles O8: the reset state is the launch at the defaults, with no request to come. -/
theorem launchHasInv : Obligations.LaunchHasInv := by
  refine ⟨launch_inv, ?_⟩
  rw [launchHoldsTheResetTable.2]
  exact launch_inv Config.default []

end Sys2Proof.Machine
end

section
/-! PROOF. O9: every expansion strobes E, and every micro-op moves the level of E as the pending list expects. -/

namespace Sys2Proof.Machine

/-! ## Lists that strobe -/

theorem strobed_cons_setE {c : Config} {it : Item} {v : Bool} (h : decodeItem c it = .ok (.setE v)) (lvl : Bool)
    (l : List Item) : strobed c lvl (it :: l) ↔ (v = false ∨ lvl = false) ∧ strobed c v l := by
  simp only [strobed, h]

theorem strobed_cons_fault {c : Config} {it : Item} {r : BitVec 24} (h : decodeItem c it = .ok (.fault r)) (lvl : Bool)
    (l : List Item) : strobed c lvl (it :: l) ↔ lvl = false := by
  simp only [strobed, h]

/-- A plain micro-op other than SET_E leaves the level of E to the rest of the list. -/
theorem strobed_cons_plain {c : Config} {it : Item} {j : Instr} (h : decodeItem c it = .ok j) (hplain : isPlain j = true)
    (hne : ∀ v, j ≠ .setE v) (lvl : Bool) (l : List Item) : strobed c lvl (it :: l) ↔ strobed c lvl l := by
  cases j with
  | setE v => exact absurd rfl (hne v)
  | cfgOut | setRs | writeD | delay => simp only [strobed, h]
  | _ => cases hplain

@[simp] theorem strobed_uSetE (c : Config) (lvl v : Bool) (l : List Item) :
    strobed c lvl (uSetE v :: l) ↔ (v = false ∨ lvl = false) ∧ strobed c v l :=
  strobed_cons_setE (decodeItem_uSetE c v) lvl l

@[simp] theorem strobed_uCfgOut (c : Config) (lvl : Bool) (l : List Item) :
    strobed c lvl (uCfgOut :: l) ↔ strobed c lvl l :=
  strobed_cons_plain (decodeItem_uCfgOut c) rfl nofun lvl l

@[simp] theorem strobed_uSetRs (c : Config) (lvl v : Bool) (l : List Item) :
    strobed c lvl (uSetRs v :: l) ↔ strobed c lvl l :=
  strobed_cons_plain (decodeItem_uSetRs c v) rfl nofun lvl l

@[simp] theorem strobed_uWriteD (c : Config) (lvl : Bool) (n : Nibble) (l : List Item) :
    strobed c lvl (uWriteD n :: l) ↔ strobed c lvl l :=
  strobed_cons_plain (decodeItem_uWriteD c n) rfl nofun lvl l

@[simp] theorem strobed_uDelay (c : Config) (lvl : Bool) (n : Nat) (l : List Item) :
    strobed c lvl (uDelay n :: l) ↔ strobed c lvl l :=
  strobed_cons_plain (decodeItem_uDelay c n) rfl nofun lvl l

@[simp] theorem strobed_delays (c : Config) (lvl : Bool) (n : Nat) (l : List Item) :
    strobed c lvl (delays n ++ l) ↔ strobed c lvl l := by
  have hreplicate (k : Nat) (m : List Item) :
      strobed c lvl (List.replicate k (uDelay delayMax) ++ m) ↔ strobed c lvl m := by
    induction k with
    | zero => rfl
    | succ k ih => rw [List.replicate_succ, List.cons_append, strobed_uDelay, ih]
  rw [delays, List.append_assoc, hreplicate, List.singleton_append, strobed_uDelay]

/-- A strobe raises a low E and lowers it again (R88, R90). -/
@[simp] theorem strobed_seqNibble (c : Config) (n : Nibble) (l : List Item) :
    strobed c false (seqNibble c n ++ l) ↔ strobed c false l := by
  simp [seqNibble, seqStrobe]

@[simp] theorem strobed_seqTransaction (c : Config) (rs : Bool) (b : Byte) (w : Nat) (l : List Item) :
    strobed c false (seqTransaction c rs b w ++ l) ↔ strobed c false l := by
  simp [seqTransaction, seqFrame]

@[simp] theorem strobed_seqCmd (c : Config) (b : Byte) (l : List Item) :
    strobed c false (seqCmd c b ++ l) ↔ strobed c false l :=
  strobed_seqTransaction ..

@[simp] theorem strobed_seqChar (c : Config) (b : Byte) (l : List Item) :
    strobed c false (seqChar c b ++ l) ↔ strobed c false l :=
  strobed_seqTransaction ..

@[simp] theorem strobed_seqSetCursor (c : Config) (row col : Byte) (l : List Item) :
    strobed c false (seqSetCursor c row col ++ l) ↔ strobed c false l := by
  unfold seqSetCursor
  split <;> simp

@[simp] theorem strobed_nil (c : Config) (lvl : Bool) : strobed c lvl [] ↔ lvl = false := Iff.rfl

/-- A FAULT at the end of a string leaves E low too (R96). -/
theorem strobed_seqString (c : Config) (s : List Byte) : strobed c false (seqString c s) := by
  have hchars (p : List Byte) (l : List Item) : strobed c false (p.flatMap (seqChar c) ++ l) ↔ strobed c false l := by
    induction p with
    | nil => rfl
    | cons b p ih => rw [List.flatMap_cons, List.append_assoc, strobed_seqChar, ih]
  rw [seqString, hchars]
  split
  · rfl
  · exact (strobed_cons_fault (decodeItem_uFault c 1) ..).mpr rfl

theorem strobed_seqInit (c : Config) : strobed c false (seqInit c) := by
  have hfinal : strobed c false (delays c.tFinal) := by simpa using strobed_delays c false c.tFinal []
  simp [seqInit, initSegments, hfinal]

theorem strobed_seqAt {c : Config} {body : List Item} (h : strobed c false body) (row col : Byte) :
    strobed c false (seqAt c row col body) := by
  rw [seqAt, strobed_seqSetCursor]
  split
  · exact h
  · rfl

/-- From a low E, a request's expansion strobes E (R90, R97). -/
theorem strobed_expand (c : Config) {i : Instr} (hi : isRequest i = true) : strobed c false (expand c i) := by
  have hchar (b : Byte) : strobed c false (seqChar c b) := by simpa using strobed_seqChar c b []
  cases i with
  | lcdInit => exact strobed_seqInit c
  | lcdCommand b => simpa [expand] using strobed_seqCmd c b []
  | lcdPrintChar b => exact hchar b
  | lcdPrintCharAt b row col => exact strobed_seqAt (hchar b) row col
  | lcdPrintString s => exact strobed_seqString c s
  | lcdPrintStringAt s row col => exact strobed_seqAt (strobed_seqString c s) row col
  | _ => cases hi

/-! ## The level of E -/

/-- E is high and has been written. -/
def State.enableHigh (s : State) : Bool := eWritten s.trace && s.outE

theorem State.strobeInv_iff (s : State) : s.strobeInv ↔ (s.refused = none → strobed s.cfg s.enableHigh s.uq) := Iff.rfl

/-- The Pin events of E. -/
def writesE (e : Event) : Bool :=
  match e with
  | .pin _ .e _ => true
  | _ => false

theorem eWritten_append (tr es : List Event) : eWritten (tr ++ es) = (eWritten tr || es.any writesE) :=
  List.any_append

/-- What keeps the port registers, the handle and the writes of E keeps the level. -/
theorem State.enableHigh_congr {s t : State} {es : List Event} (hports : t.ports = s.ports) (hcfg : t.cfg = s.cfg)
    (htrace : t.trace = s.trace ++ es) (hes : es.any writesE = false) : t.enableHigh = s.enableHigh := by
  simp only [State.enableHigh, State.outE, hports, hcfg, htrace, eWritten_append, hes, Bool.or_false]

@[simp] theorem State.finish_enableHigh (s : State) : s.finish.enableHigh = s.enableHigh := by
  rcases s.finish_cases with ⟨r, _, _, _, h⟩ | ⟨h, _⟩ <;> rw [h]
  exact State.enableHigh_congr (es := [.reqEnd s.t r]) rfl rfl rfl rfl

@[simp] theorem State.accept_enableHigh (s : State) (r : Instr) (l : List Item) :
    (s.accept r l).enableHigh = s.enableHigh := by
  have hbegin : (s.begin r l).enableHigh = s.enableHigh :=
    State.enableHigh_congr (es := [.reqBegin s.t r]) rfl rfl rfl rfl
  exact (s.begin r l).finish_enableHigh.trans hbegin

/-- SET_E v leaves E at v. -/
theorem exec_setE_enableHigh {s t : State} {v : Bool} (h : exec (.setE v) s = .next t) : t.enableHigh = v := by
  have hout : Regs.bit (Regs.setLevel s.ports s.cfg.handle.enPort s.cfg.handle.enBit v) s.cfg.handle.enPort
      s.cfg.handle.enBit = v := by
    rw [Regs.bit_setLevel, if_pos ⟨rfl, rfl⟩]
  cases h
  split <;> simp [State.enableHigh, State.outE, eWritten_append, writesE, hout]

/-- At well-formed pins no other plain micro-op changes the level of E (R19, R83, R85). -/
theorem exec_plain_enableHigh {s t : State} {j : Instr} (hwf : s.cfg.handle.wf) (hplain : isPlain j = true)
    (hne : ∀ v, j ≠ .setE v) (h : exec j s = .next t) : t.enableHigh = s.enableHigh := by
  obtain ⟨_, hrsE, _, heD⟩ := (handle_wf_iff _).mp hwf
  cases j with
  | cfgOut =>
    rw [exec_cfgOut] at h
    cases h
    exact State.enableHigh_congr (es := [.cfg s.t]) rfl rfl rfl rfl
  | setRs v =>
    have hkept := Regs.bit_setLevel_of_ne (fun hk => hrsE ⟨hk.1.symm, hk.2.symm⟩) s.ports v
    cases h
    simp [State.enableHigh, State.outE, eWritten_append, writesE, hkept]
  | setE v => exact absurd rfl (hne v)
  | writeD n =>
    have hkept := Regs.bit_maskWrite_dMask_of_not_data heD s.ports n
    cases h
    simp [State.enableHigh, State.outE, eWritten_append, writesE, hkept]
  | delay n =>
    cases h
    exact State.enableHigh_congr (es := []) rfl rfl (List.append_nil _).symm rfl
  | _ => cases hplain

/-- A plain micro-op at the head of a list that strobes leaves one that strobes from the new level. -/
theorem strobed_exec_plain {s u : State} {it : Item} {rest : List Item} {j : Instr} (hwf : s.cfg.handle.wf)
    (hs : strobed s.cfg s.enableHigh (it :: rest)) (hj : decodeItem s.cfg it = .ok j) (hplain : isPlain j = true)
    (hu : exec j (s.popItem it rest) = .next u) : strobed s.cfg u.enableHigh rest := by
  by_cases hsetE : ∃ v, j = .setE v
  · obtain ⟨v, rfl⟩ := hsetE
    rw [exec_setE_enableHigh hu]
    exact ((strobed_cons_setE hj ..).mp hs).2
  · have hne : ∀ v, j ≠ .setE v := fun v hv => hsetE ⟨v, hv⟩
    rw [exec_plain_enableHigh (s := s.popItem it rest) hwf hplain hne hu]
    exact (strobed_cons_plain hj hplain hne ..).mp hs

/-- Every move of a state with the invariant keeps the strobes. -/
theorem State.Inv.move_strobeInv {s t : State} (hs : s.Inv) (hsafe : s.safe) (hstrobe : s.strobeInv) (h : InvMove s t) :
    t.strobeInv := by
  have hwf := hs.marks.handle_wf hsafe
  rw [State.strobeInv_iff] at hstrobe ⊢
  have hlist := hstrobe hsafe.2
  cases h with
  | @plain it rest j u huq hj hplain hu =>
    obtain ⟨_, uuq, _⟩ := exec_plain_keeps hplain hu
    obtain ⟨ucfg, _⟩ := exec_keeps hu
    intro _
    rw [huq] at hlist
    have hrest := strobed_exec_plain hwf hlist hj hplain hu
    rw [State.finish_cfg, State.finish_uq, State.finish_enableHigh, ucfg, uuq]
    exact hrest
  | @fault it rest huq hj =>
    intro _
    rw [huq] at hlist
    have hlow := (strobed_cons_fault hj ..).mp hlist
    have hkept : ((s.popItem it rest).raiseFault 1).enableHigh = s.enableHigh :=
      State.enableHigh_congr (es := [.fault s.t 1]) rfl rfl rfl rfl
    exact hkept.trans hlow
  | @accept q qs i hidle hi =>
    intro _
    rw [hidle.1, strobed_nil] at hlist
    have hkept : ((s.hostArrive q qs).countInit i).enableHigh = s.enableHigh := rfl
    rw [State.accept_cfg, State.accept_uq, State.accept_enableHigh, hkept, hlist]
    exact strobed_expand s.cfg hi
  | refuse q qs hidle => exact nofun
  | wait => exact hstrobe

/-- Settles O9: step by step from the launch, where nothing is written; with nothing pending the level is low. -/
theorem enableIsLowBetweenStrobes : Obligations.EnableIsLowBetweenStrobes := by
  refine ⟨fun s t hs hstrobe h => hs.move_strobeInv (step_cases h).1 hstrobe (hs.move h), ?_, fun c q _ => rfl⟩
  intro s hstrobe hr huq hwritten
  have hlow := hstrobe hr
  rw [huq, strobed_nil, hwritten, Bool.true_and] at hlow
  exact hlow

end Sys2Proof.Machine
end

section
/-! PROOF. O39: a run of plain micro-ops, with the time it takes; a request is its acceptance, such a run, and a last
micro-op that completes it or raises its FAULT. -/

namespace Sys2Proof.Machine

/-! ## Runs -/

theorem run_succ {s t : State} (h : step s = .next t) (k : Nat) :
    Host.Core.run core (k + 1) s = Host.Core.run core k t := by
  have hcore : core.step s = .next t := h
  simp only [Host.Core.run, hcore]

theorem run_add {a : Nat} {s t : State} (h : Host.Core.run core a s = .next t) (b : Nat) :
    Host.Core.run core (a + b) s = Host.Core.run core b t := by
  induction a generalizing s with
  | zero => cases h; rw [Nat.zero_add]
  | succ a ih =>
    cases hu : step s with
    | next u =>
      rw [run_succ hu] at h
      rw [Nat.succ_add, run_succ hu, ih h]
    | fault r | refused r => simp [Host.Core.run, core, hu] at h

/-! ## What a list of micro-ops does -/

@[simp] theorem totalWait_append (c : Config) (l m : List Item) :
    totalWait c (l ++ m) = totalWait c l + totalWait c m := by
  simp [totalWait]

@[simp] theorem totalDraws_append (c : Config) (l m : List Item) :
    totalDraws c (l ++ m) = totalDraws c l + totalDraws c m := by
  simp [totalDraws]

/-- `t` comes after `s` by a run of the micro-ops of `l`: the index has passed them, events have been added, and the time
is their waits and at most DELTA_MAX for each of their draws (R28, R81). -/
structure State.Ran (s t : State) (l : List Item) : Prop where
  cfg : t.cfg = s.cfg
  refused : t.refused = s.refused
  hostq : t.hostq = s.hostq
  upc : t.upc = s.upc + l.length
  trace : ∃ es, t.trace = s.trace ++ es
  atLeast : s.t + totalWait s.cfg l ≤ t.t
  atMost : ∀ d, s.cfg.deltaMax = some d → t.t ≤ s.t + totalWait s.cfg l + d * totalDraws s.cfg l

theorem State.Ran.refl (s : State) : s.Ran s [] := by
  refine ⟨rfl, rfl, rfl, rfl, ⟨[], (List.append_nil _).symm⟩, ?_, fun d _ => ?_⟩ <;> simp [totalWait, totalDraws]

theorem State.Ran.trans {s t u : State} {l m : List Item} (h : s.Ran t l) (k : t.Ran u m) : s.Ran u (l ++ m) := by
  obtain ⟨hcfg, hrefused, hhostq, hupc, ⟨es, htrace⟩, hleast, hmost⟩ := h
  obtain ⟨kcfg, krefused, khostq, kupc, ⟨fs, ktrace⟩, kleast, kmost⟩ := k
  rw [hcfg] at kleast kmost
  refine ⟨kcfg.trans hcfg, krefused.trans hrefused, khostq.trans hhostq, ?_, ⟨es ++ fs, ?_⟩, ?_, fun d hd => ?_⟩
  · rw [kupc, hupc, List.length_append, Nat.add_assoc]
  · rw [ktrace, htrace, List.append_assoc]
  · rw [totalWait_append]
    omega
  · have h1 := hmost d hd
    have h2 := kmost d hd
    rw [totalWait_append, totalDraws_append, Nat.mul_add]
    omega

/-- The completion check is no micro-op. -/
theorem State.Ran.finish {s t : State} {l : List Item} (h : s.Ran t l) : s.Ran t.finish l := by
  obtain ⟨hcfg, hrefused, hhostq, hupc, ⟨es, htrace⟩, hleast, hmost⟩ := h
  obtain ⟨_, _, fs, ktrace, _⟩ := t.extends_finish
  refine ⟨?_, ?_, ?_, ?_, ⟨es ++ fs, by rw [ktrace, htrace, List.append_assoc]⟩, ?_, ?_⟩ <;> simpa

/-- The time of a plain micro-op: what a DELAY waits, or one draw (R81, R86). -/
theorem exec_plain_time {s t : State} {c : Config} {it : Item} {j : Instr} (hj : decodeItem c it = .ok j)
    (hplain : isPlain j = true) (h : exec j s = .next t) :
    t.t = s.t + itemWait c it + s.cfg.delta s.draws * itemDraws c it := by
  cases j with
  | cfgOut => rw [exec_cfgOut] at h; cases h; simp [itemWait, itemDraws, hj]
  | setRs | writeD | delay => cases h; simp [itemWait, itemDraws, hj]
  | setE v => cases h; split <;> simp [itemWait, itemDraws, hj]
  | _ => cases hplain

/-- A plain micro-op, executed off the pending list. -/
theorem ran_exec_plain {s u : State} {w : BitVec 32} {rest : List Item} {j : Instr} (hj : decodeUop w = .ok j)
    (hplain : isPlain j = true) (hu : exec j (s.popItem (.uop w) rest) = .next u) : s.Ran u [.uop w] := by
  obtain ⟨_, _, uupc, _⟩ := exec_plain_keeps hplain hu
  obtain ⟨ucfg, _, uhostq, urefused⟩ := exec_keeps hu
  obtain ⟨_, _, es, utrace, _⟩ := exec_extends hu
  have htime : u.t = s.t + itemWait s.cfg (.uop w) + s.cfg.delta s.draws * itemDraws s.cfg (.uop w) :=
    exec_plain_time (s := s.popItem (.uop w) rest) hj hplain hu
  refine ⟨ucfg, urefused, uhostq, uupc, ⟨es, utrace⟩, ?_, fun d hd => ?_⟩
  · simp only [totalWait, List.map_singleton, List.sum_singleton]
    omega
  · have hdelta := Nat.mul_le_mul_right (itemDraws s.cfg (.uop w)) (Config.delta_le s.cfg s.draws d hd)
    simp only [totalWait, totalDraws, List.map_singleton, List.sum_singleton]
    omega

/-- The engine's step at a plain micro-op, before the completion check. -/
theorem step_plain {s : State} {it : Item} {rest : List Item} (hit : PlainOp it) (hs : s.safe)
    (huq : s.uq = it :: rest) :
    ∃ u, step s = .next u.finish ∧ u.safe ∧ u.uq = rest ∧ u.cur = s.cur ∧ s.Ran u [it] := by
  obtain ⟨w, j, rfl, hj, hplain⟩ := hit
  obtain ⟨u, hu⟩ := exec_next j (s.popItem (.uop w) rest)
  obtain ⟨ucur, uuq, _, ufault⟩ := exec_plain_keeps hplain hu
  have hran := ran_exec_plain hj hplain hu
  exact ⟨u, step_engine hs huq hj hu, ⟨ufault.trans hs.1, hran.refused.trans hs.2⟩, uuq, ucur, hran⟩

/-- While something is pending nothing is completed (R34). -/
theorem State.finish_of_pending {s : State} (h : s.uq ≠ []) : s.finish = s := by
  rcases s.finish_cases with ⟨_, hnil, _⟩ | ⟨hfin, _⟩
  · exact absurd hnil h
  · exact hfin

/-- Plain micro-ops with something after them run in as many steps as they are. -/
theorem run_plainOps {l tail : List Item} (hl : PlainOps l) (htail : tail ≠ []) {s : State} (hs : s.safe)
    (huq : s.uq = l ++ tail) :
    ∃ u : State, Host.Core.run core l.length s = .next u ∧ u.safe ∧ u.uq = tail ∧ u.cur = s.cur ∧ s.Ran u l := by
  induction l generalizing s with
  | nil => exact ⟨s, rfl, hs, huq, rfl, .refl s⟩
  | cons it l ih =>
    obtain ⟨hit, hl⟩ := plainOps_cons.mp hl
    obtain ⟨u, hstep, husafe, huuq, hucur, hran⟩ := step_plain hit hs huq
    rw [State.finish_of_pending (by simp [huuq, htail])] at hstep
    obtain ⟨v, hrun, hvsafe, hvuq, hvcur, hvran⟩ := ih hl husafe huuq
    exact ⟨v, (run_succ hstep _).trans hrun, hvsafe, hvuq, hvcur.trans hucur, hran.trans hvran⟩

/-! ## A request from its acceptance on -/

/-- How a request whose Begin ends the trace `tr` is left: with its FAULT, or with its End (R34, R87). -/
def leftBy (fault : Bool) (tr : List Event) (t : State) (i : Instr) : Prop :=
  ∃ es : List Event, if fault = true then t.fault = some 1 ∧ t.cur = some i ∧ t.trace = tr ++ es ++ [Event.fault t.t 1]
    else t.fault = none ∧ t.cur = none ∧ t.trace = tr ++ es ++ [Event.reqEnd t.t i]

/-- Plain micro-ops run to the request's End. -/
theorem run_to_end {s : State} {i : Instr} {l : List Item} (hl : PlainOps l) (hne : l ≠ []) (hs : s.safe)
    (hcur : s.cur = some i) (huq : s.uq = l) :
    ∃ t : State, Host.Core.run core l.length s = .next t ∧ t.uq = [] ∧ s.Ran t l ∧ leftBy false s.trace t i := by
  obtain ⟨init, last, rfl⟩ : ∃ init last, l = init ++ [last] := ⟨_, _, (List.dropLast_concat_getLast hne).symm⟩
  obtain ⟨hinit, hlast⟩ := plainOps_append.mp hl
  obtain ⟨u, hrun, husafe, huuq, hucur, huran⟩ := run_plainOps hinit (List.cons_ne_nil last []) hs huq
  obtain ⟨v, hstep, hvsafe, hvuq, hvcur, hvran⟩ := step_plain (plainOps_cons.mp hlast).1 husafe huuq
  have hran := huran.trans hvran
  obtain ⟨es, htrace⟩ := hran.trace
  have hcur' : v.cur = some i := hvcur.trans (hucur.trans hcur)
  have hfin : v.finish = { v with trace := v.trace ++ [.reqEnd v.t i], cur := none } := by
    simp [State.finish, hvuq, hvsafe.1, hcur']
  refine ⟨v.finish, ?_, by rw [State.finish_uq, hvuq], hran.finish, es, ?_⟩
  · rw [List.length_append, run_add hrun]
    exact run_succ hstep 0
  · rw [hfin]
    exact ⟨hvsafe.1, rfl, by simp only [htrace]⟩

/-- Plain micro-ops and a FAULT 1 run to the FAULT (R123). -/
theorem run_to_fault {s : State} {i : Instr} {l : List Item} (hl : PlainOps l) (hs : s.safe) (hcur : s.cur = some i)
    (huq : s.uq = l ++ [uFault 1]) :
    ∃ t : State, Host.Core.run core (l ++ [uFault 1]).length s = .next t ∧ t.uq = [] ∧ s.Ran t (l ++ [uFault 1]) ∧
      leftBy true s.trace t i := by
  obtain ⟨u, hrun, husafe, huuq, hucur, huran⟩ := run_plainOps hl (List.cons_ne_nil (uFault 1) []) hs huq
  have hstep := step_engine husafe huuq (decodeItem_uFault u.cfg 1) (exec_fault 1 _)
  have hfault : u.Ran ((u.popItem (uFault 1) []).raiseFault 1) [uFault 1] := by
    refine ⟨rfl, rfl, rfl, rfl, ⟨[.fault u.t 1], rfl⟩, ?_, fun d _ => ?_⟩ <;>
      simp [totalWait, totalDraws, itemWait, itemDraws]
  obtain ⟨es, htrace⟩ := huran.trace
  have hfin : ((u.popItem (uFault 1) []).raiseFault 1).finish = (u.popItem (uFault 1) []).raiseFault 1 := by
    simp [State.finish]
  rw [hfin] at hstep
  refine ⟨_, ?_, rfl, huran.trans hfault, es, rfl, hucur.trans hcur, by simp [htrace]⟩
  rw [List.length_append, run_add hrun]
  exact run_succ hstep 0

/-- A request accepted in a state without marks runs to its End or to its FAULT, in as many steps as its expansion has
micro-ops. -/
theorem run_accepted {s : State} {i : Instr} (hi : isRequest i = true) (hs : s.safe) :
    ∃ t : State, Host.Core.run core (expand s.cfg i).length (s.accept i (expand s.cfg i)) = .next t ∧ t.uq = [] ∧
      (s.begin i (expand s.cfg i)).Ran t (expand s.cfg i) ∧
      leftBy (endsInFault s.cfg i) (s.begin i (expand s.cfg i)).trace t i := by
  obtain ⟨l, hl, hexp⟩ := expand_request_form s.cfg hi
  by_cases hnil : expand s.cfg i = []
  · have hend : endsInFault s.cfg i = false := by
      cases hfault : endsInFault s.cfg i with
      | false => rfl
      | true => simp [hnil, hfault, faultTail] at hexp
    rw [hnil, hend]
    exact ⟨s.accept i [], rfl, State.accept_uq .., (State.Ran.refl _).finish, [], by simp [State.accept_nil, hs.1]⟩
  · have haccept : s.accept i (expand s.cfg i) = s.begin i (expand s.cfg i) := State.finish_of_pending hnil
    rw [haccept]
    cases hfault : endsInFault s.cfg i with
    | false =>
      have hplain : PlainOps (expand s.cfg i) := by
        rwa [hexp, hfault, faultTail, if_neg Bool.false_ne_true, List.append_nil]
      exact run_to_end hplain hnil hs rfl rfl
    | true =>
      rw [hfault, faultTail, if_pos rfl] at hexp
      rw [hexp]
      exact run_to_fault hl hs rfl rfl

/-- Settles O39: the host move accepts the request, and from there it runs to its end. -/
theorem requestRunsToItsEndOrFault : Obligations.RequestRunsToItsEndOrFault := by
  intro s q qs i hs hidle hq hi
  have hrequest := isRequest_of_decodeReq hi
  have hstep : step s = .next (((s.hostArrive q qs).countInit i).accept i (expand s.cfg i)) :=
    (step_host hs hidle hq hi).trans (exec_request hrequest _)
  obtain ⟨t, hrun, huq, hran, es, hleft⟩ := run_accepted (s := (s.hostArrive q qs).countInit i) hrequest hs
  obtain ⟨_, hrefused, hhostq, hupc, _, hleast, hmost⟩ := hran
  refine ⟨t, es, (run_succ hstep _).trans hrun, huq, hrefused.trans hs.2, hupc.trans (Nat.zero_add _), hhostq, ?_,
    hleast, hmost⟩
  have htrace (e : Event) :
      s.trace ++ .reqBegin (s.t + q.think) i :: es ++ [e] = s.trace ++ [.reqBegin (s.t + q.think) i] ++ es ++ [e] := by
    simp
  rw [htrace, htrace]
  exact hleft

end Sys2Proof.Machine
end

section
/-! PROOF. Reads and writes of the memories: O15 and O16. -/

namespace Sys2Proof.Machine

/-- A part of an object is the object at that part's address (R41). -/
theorem Cells.readObject_slice (m : List Host.Cell) (a : Nat) {n i k : Nat} (h : i + k ≤ n) :
    Cells.readObject m (a + i) k = ((Cells.readObject m a n).drop i).take k := by
  ext1 j
  rw [List.getElem?_take, List.getElem?_drop, Cells.getElem?_readObject, Cells.getElem?_readObject, Nat.add_assoc]
  by_cases hj : j < k
  · have hin : i + j < n := by omega
    rw [if_pos hj, if_pos hj, if_pos hin]
  · rw [if_neg hj, if_neg hj]

/-- A read of a register after a masked write (R39). -/
theorem Regs.read_maskWrite (m : List Host.Cell) (p q : PortRef) (mask v : Byte) :
    Regs.read (Regs.maskWrite m p mask v) q =
      if q = p then (Regs.read m p &&& ~~~mask) ||| (v &&& mask) else Regs.read m q :=
  Regs.read_write ..

/-- The engine move leaves the caller's memory as it is: only the host stores there (R48). -/
theorem step_mem_of_pending {s t : State} (hpending : s.uq ≠ []) (h : step s = .next t) : t.mem = s.mem := by
  obtain ⟨_, hstep⟩ := step_cases h
  rcases hstep with ⟨it, rest, i, u, _, _, hu, rfl⟩ | ⟨_, _, _, hidle, _⟩ | ⟨_, _, _, hidle, _⟩ | ⟨hidle, _⟩
  · obtain ⟨_, hmem, _⟩ := exec_keeps hu
    exact u.finish_mem.trans hmem
  all_goals exact absurd hidle.1 hpending

/-- Settles O15: an object is its bytes one by one, and an engine move is one instruction. -/
theorem callerMemoryIsReadInOrderAndNeverWritten : Obligations.CallerMemoryIsReadInOrderAndNeverWritten := by
  refine ⟨fun m a n => ⟨Cells.length_readObject m a n, fun i v hi hread => ?_, fun i k => Cells.readObject_slice m a⟩,
    fun s t => step_mem_of_pending⟩
  rw [Cells.getElem?_readObject, if_pos hi, callerByte, hread, Option.getD_some]

/-- Settles O16: a primitive is one write of one register space, whose effect on each bit the laws of that space give. -/
theorem pinPrimitivesWriteOneRegister : Obligations.PinPrimitivesWriteOneRegister := by
  intro s p q k j m v
  exact ⟨Regs.bit_setLevel .., rfl, Regs.bit_setLevel .., Regs.bit_setLevel .., Regs.read_maskWrite .., fun _ => rfl, rfl⟩

end Sys2Proof.Machine
end

section
/-! PROOF. The latch events of a step, O13: only SET_E emits one, and its write of E changes no sampled line. -/

namespace Sys2Proof.Machine

theorem latches_append (l m : List Event) : latches (l ++ m) = latches l ++ latches m := List.filterMap_append

@[simp] theorem State.finish_latches (s : State) : latches s.finish.trace = latches s.trace := by
  rcases s.finish_cases with ⟨r, _, _, _, h⟩ | ⟨h, _⟩ <;> rw [h]
  rw [latches_append]
  exact List.append_nil _

@[simp] theorem State.accept_latches (s : State) (r : Instr) (l : List Item) :
    latches (s.accept r l).trace = latches s.trace := by
  rw [State.accept, State.finish_latches, State.begin_trace, latches_append]
  exact List.append_nil _

/-- At well-formed pins a write of E changes none of the lines that its edge samples (R19, R54). -/
theorem State.sample_writeE {s u : State} {v : Bool} (hwf : s.cfg.handle.wf) (hcfg : u.cfg = s.cfg)
    (hddrs : u.ddrs = s.ddrs)
    (hports : u.ports = Regs.setLevel s.ports s.cfg.handle.enPort s.cfg.handle.enBit v) :
    u.sampleRs = s.sampleRs ∧ u.sampleD = s.sampleD := by
  obtain ⟨_, hrsE, _, heD⟩ := (handle_wf_iff _).mp hwf
  have hrs : u.outRs = s.outRs := by
    rw [State.outRs, hports, hcfg]
    exact Regs.bit_setLevel_of_ne hrsE ..
  have hbit (k : Fin 8) (hk : k ∈ dataBits s.cfg.handle) :
      Regs.bit u.ports s.cfg.handle.dPort k = Regs.bit s.ports s.cfg.handle.dPort k := by
    rw [hports]
    exact Regs.bit_setLevel_of_ne (fun h => heD ⟨h.1.symm, by rwa [← h.2]⟩) ..
  have hd : u.outD = s.outD := by
    simp only [Regs.bit] at hbit
    simp only [State.outD, hcfg, busNibble]
    rw [hbit s.cfg.handle.d4Bit (by simp [dataBits]), hbit s.cfg.handle.d5Bit (by simp [dataBits]),
      hbit s.cfg.handle.d6Bit (by simp [dataBits]), hbit s.cfg.handle.d7Bit (by simp [dataBits])]
  have hdirRs : u.dirRs = s.dirRs := by rw [State.dirRs, hcfg, hddrs, State.dirRs]
  have hdirD : u.dirD = s.dirD := by rw [State.dirD, hcfg, hddrs, State.dirD]
  exact ⟨by simp only [State.sampleRs, hdirRs, hrs], by simp only [State.sampleD, hdirD, hd]⟩

/-- The latch events of an instruction: one for SET_E 0 with E high and driven, of the lines as they stand (R54). -/
def State.latchesOf (s : State) (i : Instr) : List (Nat × Option Bool × Option Nibble) :=
  if s.outE = true ∧ s.dirE = true ∧ i = .setE false then [(s.t, s.sampleRs, s.sampleD)] else []

/-- SET_E emits a latch event exactly on a falling edge of a driven E (R54, R84). -/
theorem exec_setE_latches {s t : State} {v : Bool} (hwf : s.cfg.handle.wf) (h : exec (.setE v) s = .next t) :
    latches t.trace = latches s.trace ++ s.latchesOf (.setE v) := by
  have hpin : latches (s.trace ++ [.pin s.t .e v]) = latches s.trace := by
    rw [latches_append]
    exact List.append_nil _
  have hsample := State.sample_writeE (v := v)
    (u := (s.writePin s.cfg.handle.enPort s.cfg.handle.enBit v).emit (.pin s.t .e v)) hwf rfl rfl rfl
  cases h
  by_cases hedge : s.outE = true ∧ v = false ∧ s.dirE = true
  · obtain ⟨hout, rfl, hdir⟩ := hedge
    rw [State.latchesOf, if_pos ⟨hout, rfl, hdir⟩, if_pos ⟨hout, hdir, rfl⟩, State.drawTime_trace, State.latch_trace,
      hsample.1, hsample.2, latches_append, State.emit_trace, State.writePin_trace, hpin]
    rfl
  · have hnone : ¬ (s.outE = true ∧ s.dirE = true ∧ Instr.setE v = .setE false) :=
      fun ⟨hout, hdir, hv⟩ => hedge ⟨hout, Instr.setE.inj hv, hdir⟩
    rw [State.latchesOf, if_neg hedge, if_neg hnone, State.drawTime_trace, State.emit_trace, State.writePin_trace, hpin,
      List.append_nil]

/-- No instruction but SET_E emits a latch event (R54). -/
theorem exec_latches_of_ne {i : Instr} {s t : State} (hne : ∀ v, i ≠ .setE v) (h : exec i s = .next t) :
    latches t.trace = latches s.trace := by
  have hother {tr : List Event} {e : Event} (he : latches [e] = []) : latches (tr ++ [e]) = latches tr := by
    rw [latches_append, he, List.append_nil]
  rcases exec_kinds i with hi | hi | ⟨r, rfl⟩ | hi
  · rw [exec_request hi] at h
    cases h
    exact State.accept_latches ..
  · cases i with
    | setE v => exact absurd rfl (hne v)
    | cfgOut => rw [exec_cfgOut] at h; cases h; exact hother rfl
    | setRs | writeD => cases h; exact hother rfl
    | delay => cases h; rfl
    | _ => cases hi
  · cases h
    exact hother rfl
  · rw [hi] at h
    cases h
    rfl

/-- The latch events that an instruction adds (R54). -/
theorem exec_latches {i : Instr} {s t : State} (hwf : s.cfg.handle.wf) (h : exec i s = .next t) :
    latches t.trace = latches s.trace ++ s.latchesOf i := by
  by_cases hset : ∃ v, i = .setE v
  · obtain ⟨v, rfl⟩ := hset
    exact exec_setE_latches hwf h
  · have hne (v : Bool) : i ≠ .setE v := fun hv => hset ⟨v, hv⟩
    have hnone : s.latchesOf i = [] := if_neg fun ⟨_, _, hi⟩ => hne false hi
    rw [exec_latches_of_ne hne h, hnone, List.append_nil]

/-- The latch events that a step adds: those of the entry it executes; the host adds none. -/
theorem step_latches {s t : State} (hwf : s.cfg.handle.wf) (h : step s = .next t) :
    (∃ it rest i, s.uq = it :: rest ∧ decodeItem s.cfg it = .ok i ∧
        latches t.trace = latches s.trace ++ s.latchesOf i) ∨
      (s.uq = [] ∧ latches t.trace = latches s.trace) := by
  obtain ⟨_, hstep⟩ := step_cases h
  rcases hstep with ⟨it, rest, i, u, huq, hi, hu, rfl⟩ | ⟨q, qs, i, hidle, _, hi, ht⟩ | ⟨q, qs, e, hidle, _, _, rfl⟩ |
    ⟨hidle, _, rfl⟩
  · have hexec := exec_latches (s := s.popItem it rest) hwf hu
    exact .inl ⟨it, rest, i, huq, hi, (State.finish_latches u).trans hexec⟩
  · rw [exec_request (isRequest_of_decodeReq hi)] at ht
    cases ht
    exact .inr ⟨hidle.1, State.accept_latches ..⟩
  · exact .inr ⟨hidle.1, rfl⟩
  · exact .inr ⟨hidle.1, rfl⟩

/-- Settles O13: a step adds the latch events of the entry at the head of the pending list. -/
theorem latchExactlyOnFallingDrivenEnable : Obligations.LatchExactlyOnFallingDrivenEnable := by
  intro s t hwf h
  rcases step_latches hwf h with ⟨it, rest, i, huq, hi, hlatches⟩ | ⟨huq, hlatches⟩
  · rw [hlatches, State.latchesOf, huq, List.head?_cons, Option.map_some, hi]
    cases i with
    | setE v => cases v <;> simp [State.sampleRs, State.sampleD]
    | _ => simp
  · simp [hlatches, huq]

end Sys2Proof.Machine
end

section
/-! PROOF. WRITE_D, O20: its one masked write, read back line by line. -/

namespace Sys2Proof.Machine

theorem toNat_uopCode (w : BitVec 32) : (uopCode w).toNat = w.toNat % 8 := by
  rw [uopCode, BitVec.extractLsb'_toNat, Nat.shiftRight_zero]

/-- UOP code 3 is WRITE_D, its nibble in bits 7:4 (R72). -/
theorem decodeUop_writeD {w : BitVec 32} (h : w.toNat % 8 = 3) : decodeUop w = .ok (.writeD (w.extractLsb' 4 4)) := by
  simp only [decodeUop, toNat_uopCode, h, uopN]

/-- A draw is bounded by DELTA_MAX (R81). -/
theorem drawAfter_drawTime {s u : State} (hcfg : u.cfg = s.cfg) (ht : u.t = s.t) : drawAfter s u.drawTime :=
  ⟨u.cfg.delta u.draws, by rw [State.drawTime_t, ht], fun m hm => Config.delta_le u.cfg u.draws m (hcfg ▸ hm)⟩

theorem nibbleBit_eq_ite (n : Nibble) (i : Nat) : nibbleBit n i = if n.getLsbD i then 1#8 else 0#8 := by
  cases h : n.getLsbD i <;> simp [nibbleBit, h]

/-- Settles O20: the lines and the other bits follow from the masked write at well-formed pins. -/
theorem writeDPutsTheNibble : Obligations.WriteDPutsTheNibble := by
  refine ⟨fun w => decodeUop_writeD, fun s n hwf => ?_⟩
  obtain ⟨_, _, hrsD, heD⟩ := (handle_wf_iff _).mp hwf
  refine ⟨_, rfl, ⟨dMask s.cfg.handle, dValue s.cfg.handle n, rfl, ?_, fun p => ?_⟩, busNibble_maskWrite hwf s.ports n,
    Regs.bit_maskWrite_dMask_of_not_data hrsD .., Regs.bit_maskWrite_dMask_of_not_data heD .., rfl, fun p k hp => ?_, rfl,
    drawAfter_drawTime rfl rfl, rfl, rfl, rfl, rfl, rfl, rfl, rfl, rfl, rfl, rfl⟩
  · simp only [dValue, nibbleBit_eq_ite]
  · refine (Regs.read_maskWrite ..).trans ?_
    by_cases hp : p = s.cfg.handle.dPort
    · subst hp
      rfl
    · rw [if_neg hp, if_neg hp]
  · exact Regs.bit_maskWrite_dMask_of_not_data (by simpa [dataBits] using hp) ..

end Sys2Proof.Machine
end

section
/-! PROOF. The controller's words and instructions: O46, O50, O51, O52 and O53. -/

namespace Sys2Proof.Machine

/-! ## Bits and nibbles of a byte as numbers -/

theorem getLsbD_eq_decide {w : Nat} (b : BitVec w) (i : Nat) : b.getLsbD i = decide (b.toNat / 2 ^ i % 2 = 1) := by
  rw [← BitVec.testBit_toNat, Nat.testBit_eq_decide_div_mod_eq]

theorem getLsbD_iff {w : Nat} (b : BitVec w) (i : Nat) : b.getLsbD i = true ↔ b.toNat / 2 ^ i % 2 = 1 := by
  rw [getLsbD_eq_decide, decide_eq_true_iff]

theorem toNat_hiNibble (b : Byte) : (hiNibble b).toNat = b.toNat / 16 := by
  have h : b.toNat / 16 < 16 := by omega
  rw [hiNibble, BitVec.extractLsb'_toNat, Nat.shiftRight_eq_div_pow]
  exact Nat.mod_eq_of_lt h

theorem toNat_loNibble (b : Byte) : (loNibble b).toNat = b.toNat % 16 := by
  rw [loNibble, BitVec.extractLsb'_toNat, Nat.shiftRight_zero]

theorem joinNibbles_eq_ofNat (hi lo : Nibble) : joinNibbles hi lo = BitVec.ofNat 8 (16 * hi.toNat + lo.toNat) := by
  apply BitVec.eq_of_toNat_eq
  rw [joinNibbles, BitVec.toNat_append, ← Nat.shiftLeft_add_eq_or_of_lt lo.isLt, Nat.shiftLeft_eq, BitVec.toNat_ofNat]
  omega

theorem toNat_latchFrame (rs : Bool) (n : Nibble) : (latchFrame rs n).toNat = (if rs then 16 else 0) + n.toNat := by
  rw [latchFrame, BitVec.toNat_append, ← Nat.shiftLeft_add_eq_or_of_lt n.isLt]
  cases rs <;> rfl

/-- Settles O46: the nibbles as quotient and remainder by 16. -/
theorem bytesTravelAsTwoFrames : Obligations.BytesTravelAsTwoFrames := by
  intro rs b
  refine ⟨toNat_hiNibble b, toNat_loNibble b, ?_, ?_⟩
  · rw [joinNibbles_eq_ofNat, toNat_hiNibble, toNat_loNibble, Nat.div_add_mod, BitVec.ofNat_toNat, BitVec.setWidth_eq]
  · simp only [byteFrames, List.map_cons, List.map_nil, toNat_latchFrame, toNat_hiNibble, toNat_loNibble]

/-! ## Address counter and view -/

theorem Observer.twoLine_iff (o : Observer) : o.twoLine = true ↔ ∃ f, o.func = some f ∧ f.toNat / 8 % 2 = 1 := by
  unfold Observer.twoLine
  cases o.func with
  | none => simp
  | some f => simpa using getLsbD_iff f 3

theorem Observer.displayOn_iff (o : Observer) : o.displayOn = true ↔ ∃ d, o.dctl = some d ∧ d.toNat / 4 % 2 = 1 := by
  unfold Observer.displayOn
  cases o.dctl with
  | none => simp
  | some d => simpa using getLsbD_iff d 2

theorem ddramExists_iff (a : BitVec 7) : ddramExists a = true ↔ a.toNat ≤ 0x27 ∨ 0x40 ≤ a.toNat ∧ a.toNat ≤ 0x67 := by
  simp [ddramExists]

theorem Observer.valid_iff {o : Observer} (h : o.twoLine = true) (a : BitVec 7) :
    o.valid a = true ↔ a.toNat ≤ 0x27 ∨ 0x40 ≤ a.toNat ∧ a.toNat ≤ 0x67 := by
  rw [Observer.valid, h, Bool.true_and, ddramExists_iff]

/-- The successor of an address of 2-line mode (R64). -/
theorem Observer.acSucc_ddram {o : Observer} (h : o.twoLine = true) {a : BitVec 7} (ha : o.valid a = true) :
    ∃ b : BitVec 7, o.acSucc (.ddram a) = .ddram b ∧
      b.toNat = if a.toNat = 0x27 then 0x40 else if a.toNat = 0x67 then 0x00 else a.toNat + 1 := by
  have hrange := (Observer.valid_iff h a).mp ha
  have hexists := (ddramExists_iff a).mpr hrange
  simp only [Observer.acSucc, h, if_true]
  by_cases h27 : a = 0x27
  · subst h27
    exact ⟨0x40, rfl, rfl⟩
  · by_cases h67 : a = 0x67
    · subst h67
      exact ⟨0x00, rfl, rfl⟩
    · have hn27 : a.toNat ≠ 0x27 := fun hn => h27 (BitVec.eq_of_toNat_eq hn)
      have hn67 : a.toNat ≠ 0x67 := fun hn => h67 (BitVec.eq_of_toNat_eq hn)
      refine ⟨a + 1, by rw [if_neg h27, if_neg h67, if_pos hexists], ?_⟩
      have hone : (1 : BitVec 7).toNat = 1 := rfl
      rw [if_neg hn27, if_neg hn67, BitVec.toNat_add, hone]
      omega

/-- The predecessor of an address of 2-line mode (R64). -/
theorem Observer.acPred_ddram {o : Observer} (h : o.twoLine = true) {a : BitVec 7} (ha : o.valid a = true) :
    ∃ b : BitVec 7, o.acPred (.ddram a) = .ddram b ∧
      b.toNat = if a.toNat = 0x40 then 0x27 else if a.toNat = 0x00 then 0x67 else a.toNat - 1 := by
  have hrange := (Observer.valid_iff h a).mp ha
  have hexists := (ddramExists_iff a).mpr hrange
  simp only [Observer.acPred, h, if_true]
  by_cases h40 : a = 0x40
  · subst h40
    exact ⟨0x27, rfl, rfl⟩
  · by_cases h00 : a = 0x00
    · subst h00
      exact ⟨0x67, rfl, rfl⟩
    · have hn40 : a.toNat ≠ 0x40 := fun hn => h40 (BitVec.eq_of_toNat_eq hn)
      have hn00 : a.toNat ≠ 0x00 := fun hn => h00 (BitVec.eq_of_toNat_eq hn)
      refine ⟨a - 1, by rw [if_neg h40, if_neg h00, if_pos hexists], ?_⟩
      have hone : (1 : BitVec 7).toNat = 1 := rfl
      rw [if_neg hn40, if_neg hn00, BitVec.toNat_sub, hone]
      omega

/-- Settles O52: inside 2-line mode by the addresses it has; outside it by definition. -/
theorem addressCounterMoves : Obligations.AddressCounterMoves := by
  intro o
  rw [← Observer.twoLine_iff]
  refine ⟨fun h => ⟨Observer.valid_iff h, fun a => Observer.acSucc_ddram h, fun a => Observer.acPred_ddram h, ?_⟩,
    fun h => ?_⟩
  · simp only [Observer.acSucc, Observer.acPred, h, if_true, and_self]
  · rw [Bool.not_eq_true] at h
    simp [Observer.valid, Observer.acSucc, Observer.acPred, h]

/-- Settles O53: the view is a read of the DDRAM under the display condition, and ⊥ otherwise. -/
theorem visibleCharacters : Obligations.VisibleCharacters := by
  intro c o row col hlow hhigh
  rw [← Observer.twoLine_iff, ← Observer.displayOn_iff]
  refine ⟨fun hshown => ⟨?_, ?_⟩, fun hhidden => if_neg fun h => hhidden h.2.2.2.2⟩
  · rintro rfl
    exact if_pos ⟨by decide, by decide, hlow, hhigh, hshown⟩
  · rintro rfl
    exact if_pos ⟨by decide, by decide, hlow, hhigh, hshown⟩

/-! ## Instruction bytes -/

/-- The classes of R62 by their ranges. -/
theorem ctlClass_ranges (b : Byte) :
    (b.toNat = 0 → ctlClass b = .undefinedByte) ∧ (b.toNat = 1 → ctlClass b = .clearDisplay) ∧
      (2 ≤ b.toNat ∧ b.toNat ≤ 3 → ctlClass b = .returnHome) ∧
      (4 ≤ b.toNat ∧ b.toNat ≤ 7 → ctlClass b = .entryModeSet) ∧
      (8 ≤ b.toNat ∧ b.toNat ≤ 0xF → ctlClass b = .displayControl) ∧
      (0x10 ≤ b.toNat ∧ b.toNat ≤ 0x1F → ctlClass b = .shiftMove) ∧
      (0x20 ≤ b.toNat ∧ b.toNat ≤ 0x3F → ctlClass b = .functionSet) ∧
      (0x40 ≤ b.toNat ∧ b.toNat ≤ 0x7F → ctlClass b = .setCgram) ∧
      (0x80 ≤ b.toNat → ctlClass b = .setDdram) := by
  revert b
  decide

theorem Cells.read_map_const (l : List Nat) (v : Byte) (a : Nat) :
    Cells.read (l.map fun x => (x, v)) a = if a ∈ l then some v else none := by
  induction l with
  | nil => rfl
  | cons x l ih =>
    rw [List.map_cons, Cells.read, ih]
    by_cases hx : x = a
    · simp [hx]
    · simp [hx, Ne.symm hx]

/-- DDRAM filled with a byte reads as that byte at its 128 addresses, and at no other (R62). -/
theorem Cells.read_fill (v : Byte) (a : Nat) : Cells.read (Cells.fill v) a = if a < 128 then some v else none := by
  rw [Cells.fill, Cells.read_map_const]
  simp only [List.mem_range]

/-- Settles O50: the class of each range, and what the controller does with a byte of that class. -/
theorem controllerInstructionTable : Obligations.ControllerInstructionTable := by
  intro c o b t
  obtain ⟨h0, h1, h2, h4, h8, h10, h20, h40, h80⟩ := ctlClass_ranges b
  refine ⟨fun hb => ?_, fun hb => ⟨Cells.fill 0x20, Cells.read_fill 0x20, ?_⟩, fun hb => ?_, fun hb => ?_, fun hb => ?_,
    fun hb => ?_, fun hb => ?_, fun hb => ?_, fun hb => ?_⟩
  · simp only [Observer.execInstruction, h0 hb]
    rfl
  · simp only [Observer.execInstruction, h1 hb]
    cases o.entry <;> rfl
  · simp only [Observer.execInstruction, h2 hb]
  · simp only [Observer.execInstruction, h4 hb]
  · simp only [Observer.execInstruction, h8 hb]
  · have hbit3 : b.getLsbD 3 = true ↔ b.toNat / 8 % 2 = 1 := getLsbD_iff b 3
    have hbit2 : b.getLsbD 2 = true ↔ b.toNat / 4 % 2 = 1 := getLsbD_iff b 2
    simp only [Observer.execInstruction, h10 hb, hbit3, hbit2]
    by_cases hsucc : b.toNat / 4 % 2 = 1
    · simp only [if_pos hsucc]
    · simp only [if_neg hsucc]
  · have hbit4 : b.getLsbD 4 = true ↔ b.toNat / 16 % 2 = 1 := getLsbD_iff b 4
    simp only [Observer.execInstruction, h20 hb, hbit4]
  · simp only [Observer.execInstruction, h40 hb]
  · have haddr : b.extractLsb' 0 7 = BitVec.ofNat 7 b.toNat := by
      rw [BitVec.extractLsb', Nat.shiftRight_zero]
    simp only [Observer.execInstruction, h80 hb, haddr]

/-! ## Characters -/

theorem Observer.execCharacter_ddram {o : Observer} {a : BitVec 7} (h : o.ac = .ddram a) (c : Config) (b : Byte)
    (t : Nat) :
    o.execCharacter c b t =
      { o with ddram := Cells.write o.ddram a.toNat b, ac := o.acAfterWrite, shift := o.shiftAfterWrite
               busyUntil := t + c.obsExecShort } := by
  simp only [Observer.execCharacter, h]

theorem Observer.execCharacter_cg {o : Observer} (h : o.ac = .cg) (c : Config) (b : Byte) (t : Nat) :
    o.execCharacter c b t = { o with busyUntil := t + c.obsExecShort } := by
  simp only [Observer.execCharacter, h]

theorem Observer.execCharacter_unknown {o : Observer} (h : o.ac = .unknown) (c : Config) (b : Byte) (t : Nat) :
    o.execCharacter c b t = { o with ddram := [], busyUntil := t + c.obsExecShort } := by
  simp only [Observer.execCharacter, h]

/-- With the entry mode known, its bits 1 and 0 choose the move and the shift (R63). -/
theorem Observer.afterWrite_of_entry {o : Observer} {e : Byte} (h : o.entry = some e) :
    o.acAfterWrite = (if e.toNat / 2 % 2 = 1 then o.acSucc o.ac else o.acPred o.ac) ∧
      o.shiftAfterWrite = (if e.toNat % 2 = 1 then .unknown else o.shift) := by
  simp only [Observer.acAfterWrite, Observer.shiftAfterWrite, h, getLsbD_iff, Nat.pow_one, Nat.pow_zero, Nat.div_one,
    and_self]

/-- With the entry mode unknown the counter is lost and the shift kept (R63). -/
theorem Observer.afterWrite_of_no_entry {o : Observer} (h : o.entry = none) :
    o.acAfterWrite = .unknown ∧ o.shiftAfterWrite = o.shift := by
  simp only [Observer.acAfterWrite, Observer.shiftAfterWrite, h, and_self]

/-- Settles O51: one case per kind of address counter. -/
theorem characterWrites : Obligations.CharacterWrites := by
  rintro c o b t _ rfl
  cases hac : o.ac with
  | ddram a =>
    rw [Observer.execCharacter_ddram hac]
    refine ⟨rfl, rfl, rfl, rfl, rfl, rfl, rfl, ?_, nofun, nofun⟩
    rintro _ ⟨⟩
    exact ⟨fun x => Cells.read_write .., fun h => Observer.afterWrite_of_no_entry h,
      fun e he => hac ▸ Observer.afterWrite_of_entry he⟩
  | cg =>
    rw [Observer.execCharacter_cg hac]
    exact ⟨rfl, rfl, rfl, rfl, rfl, rfl, rfl, nofun, fun _ => ⟨rfl, hac, rfl⟩, nofun⟩
  | unknown =>
    rw [Observer.execCharacter_unknown hac]
    exact ⟨rfl, rfl, rfl, rfl, rfl, rfl, rfl, nofun, nofun, fun _ => ⟨fun _ => rfl, hac, rfl⟩⟩

end Sys2Proof.Machine
end

section
/-! PROOF. Latches at the controller: O47, O48 and O49. -/

namespace Sys2Proof.Machine

/-- In mode UNKNOWN there is no busy check (R58, R59). -/
theorem Observer.latch_unknown {o : Observer} (hmode : o.mode = .unknown) (c : Config) (t : Nat) (r : Bool) (n : Nibble) :
    o.latch c t (some r) (some n) = o.latchUnknown c t r n := by
  simp [Observer.latch, Observer.latchDriven, Observer.latchChecked, hmode]

/-- A timing violation (R58). -/
theorem Observer.latch_early {o : Observer} {t : Nat} (hmode : o.mode ≠ .unknown) (ht : t < o.busyUntil) (c : Config)
    (r : Bool) (n : Nibble) : o.latch c t (some r) (some n) = o.lose.latchUnknown c t r n :=
  if_pos ⟨hmode, ht⟩

/-- A latch that passes the busy check is read by the mode (R58). -/
theorem Observer.latch_in_time {o : Observer} {t : Nat} (ht : o.busyUntil ≤ t) (c : Config) (r : Bool) (n : Nibble) :
    o.latch c t (some r) (some n) = o.latchChecked c t r n :=
  if_neg fun h => Nat.not_lt.mpr ht h.2

/-- With everything lost, a latch is read as in mode UNKNOWN. -/
theorem Observer.lose_latch (c : Config) (o : Observer) (t : Nat) (r : Bool) (n : Nibble) :
    o.lose.latch c t (some r) (some n) = o.lose.latchUnknown c t r n :=
  Observer.latch_unknown rfl c t r n

/-- Settles O47: `lost` is the observer's `lose`. -/
theorem timingViolationLosesEverything : Obligations.TimingViolationLosesEverything := by
  intro c o t rs n lost hlost
  have hlose : lost = o.lose := hlost
  rw [hlose]
  cases rs with
  | none => exact ⟨fun _ => rfl, fun h => absurd rfl h⟩
  | some r =>
    cases n with
    | none => exact ⟨fun _ => rfl, fun _ h => absurd rfl h⟩
    | some n =>
      refine ⟨by simp, fun _ _ hmode ht => ?_⟩
      rw [Observer.latch_early hmode ht, Observer.lose_latch]

theorem gapReached_iff (t x gap : Nat) : gapReached t (some x) gap = true ↔ (gap : Int) ≤ (t : Int) - x := by
  simp only [gapReached, decide_eq_true_iff]
  omega

/-- The pulse that starts the count, or starts it again (R59). -/
def Observer.firstPulse (c : Config) (o : Observer) (t : Nat) : Observer :=
  { o with k := if c.obsPowerMin ≤ t then 1 else 0, tk := some t }

theorem Observer.blindPulse_zero {o : Observer} (hk : o.k = 0) (c : Config) (t : Nat) :
    o.blindPulse c t = o.firstPulse c t := by
  by_cases ht : c.obsPowerMin ≤ t <;> simp [Observer.blindPulse, Observer.firstPulse, hk, ht]

theorem Observer.blindPulse_one {o : Observer} {x : Nat} (hk : o.k = 1) (hx : o.tk = some x) (c : Config) (t : Nat) :
    o.blindPulse c t =
      if (c.obsResetGap1 : Int) ≤ (t : Int) - x then { o with k := 2, tk := some t } else o.firstPulse c t := by
  simp [Observer.blindPulse, Observer.firstPulse, hk, hx, gapReached_iff]

theorem Observer.blindPulse_two {o : Observer} {x : Nat} (hk : o.k = 2) (hx : o.tk = some x) (c : Config) (t : Nat) :
    o.blindPulse c t =
      if (c.obsResetGap2 : Int) ≤ (t : Int) - x then
        { o with k := 0, mode := .m8, func := none, busyUntil := t + c.obsExecShort }
      else o.firstPulse c t := by
  simp [Observer.blindPulse, Observer.firstPulse, hk, hx, gapReached_iff]

/-- Settles O48: the pulse by the count it finds. -/
theorem blindResetCountsThreePulses : Obligations.BlindResetCountsThreePulses := by
  intro c o t r n hmode
  rw [Observer.latch_unknown hmode, Observer.latchUnknown]
  refine ⟨fun hno => if_neg hno, fun hr hn => ?_⟩
  rw [if_pos ⟨hr, hn⟩]
  exact ⟨fun hk => Observer.blindPulse_zero hk c t, fun x hk hx => Observer.blindPulse_one hk hx c t,
    fun x hk hx => Observer.blindPulse_two hk hx c t⟩

/-- The second nibble of a pair with one RS makes the byte, and mode is M4H before it is executed (R61). -/
theorem Observer.latchLow_same_rs (c : Config) (o : Observer) (t : Nat) (hi : Nibble) (r : Bool) (n : Nibble) :
    o.latchLow c t r hi r n =
      Observer.execByte c { o with mode := .m4h } r (BitVec.ofNat 8 (16 * hi.toNat + n.toNat)) t := by
  rw [Observer.latchLow, if_pos rfl, joinNibbles_eq_ofNat]

/-- A pair whose RS differs loses everything (R61). -/
theorem Observer.latchLow_other_rs (c : Config) (o : Observer) (t : Nat) (hi : Nibble) (r : Bool) (n : Nibble) :
    o.latchLow c t (!r) hi r n = o.lose.latch c t (some r) (some n) := by
  rw [Observer.latchLow, if_neg (by simp), Observer.lose_latch]

theorem Observer.latchChecked_m8 {o : Observer} (h : o.mode = .m8) (c : Config) (t : Nat) (r : Bool) (n : Nibble) :
    o.latchChecked c t r n = o.latchM8 c t r n := by
  simp only [Observer.latchChecked, h]

theorem Observer.latchChecked_m4h {o : Observer} (h : o.mode = .m4h) (c : Config) (t : Nat) (r : Bool) (n : Nibble) :
    o.latchChecked c t r n = { o with mode := .m4l r n } := by
  simp only [Observer.latchChecked, h]

theorem Observer.latchChecked_m4l {o : Observer} {rs : Bool} {hi : Nibble} (h : o.mode = .m4l rs hi) (c : Config)
    (t : Nat) (r : Bool) (n : Nibble) : o.latchChecked c t r n = o.latchLow c t rs hi r n := by
  simp only [Observer.latchChecked, h]

/-- Settles O49: past the busy check, one equation per mode. -/
theorem nibblesAreReadByTheMode : Obligations.NibblesAreReadByTheMode := by
  intro c o t r n ht
  rw [Observer.latch_in_time ht]
  refine ⟨fun hm8 => Observer.latchChecked_m8 hm8 .., fun hm4h => Observer.latchChecked_m4h hm4h .., fun hi hm4l => ?_,
    fun hi hm4l => ?_⟩
  · exact (Observer.latchChecked_m4l hm4l ..).trans (Observer.latchLow_same_rs ..)
  · exact (Observer.latchChecked_m4l hm4l ..).trans (Observer.latchLow_other_rs ..)

end Sys2Proof.Machine
end

section
/-! PROOF. The decoder of the four forms: O42, O44, O43 and O45. -/

namespace Sys2Proof.Machine

/-! ## Command bytes -/

theorem msb_ddramByte (a : BitVec 7) : (ddramByte a).msb = true := by
  rw [ddramByte, BitVec.msb_append]
  rfl

theorem extractLsb'_ddramByte (a : BitVec 7) : (ddramByte a).extractLsb' 0 7 = a := by
  ext i hi
  rw [ddramByte, BitVec.getElem_extractLsb', BitVec.getLsbD_append]
  simp [hi]

theorem ddramByte_ne {b : Byte} (hb : b.msb = false) (a : BitVec 7) : ddramByte a ≠ b := by
  rintro rfl
  rw [msb_ddramByte] at hb
  cases hb

/-- Where the rows of R74 are disjoint, the byte of each is none of the bytes before it, in the order of `decodeCmd`. -/
theorem cmdBytesDistinct_ne {c : Config} (hc : c.cmdBytesDistinct) :
    c.cmdHome ≠ c.cmdClear ∧
    (c.cmdFuncset ≠ c.cmdHome ∧ c.cmdFuncset ≠ c.cmdClear) ∧
    (c.initDispctrl ≠ c.cmdFuncset ∧ c.initDispctrl ≠ c.cmdHome ∧ c.initDispctrl ≠ c.cmdClear) ∧
    (c.initEntry ≠ c.initDispctrl ∧ c.initEntry ≠ c.cmdFuncset ∧ c.initEntry ≠ c.cmdHome ∧ c.initEntry ≠ c.cmdClear) ∧
    ∀ a, ddramByte a ≠ c.cmdClear ∧ ddramByte a ≠ c.cmdHome ∧ ddramByte a ≠ c.cmdFuncset ∧
      ddramByte a ≠ c.initDispctrl ∧ ddramByte a ≠ c.initEntry := by
  obtain ⟨hnodup, hmsb⟩ := hc
  have hlater := hnodup.imp Ne.symm
  simp only [List.pairwise_cons, List.forall_mem_cons] at hlater hmsb
  obtain ⟨⟨hhc, hfc, hdc, hec, -⟩, ⟨hfh, hdh, heh, -⟩, ⟨hdf, hef, -⟩, ⟨hed, -⟩, -⟩ := hlater
  obtain ⟨hc, hh, hf, hd, he, -⟩ := hmsb
  exact ⟨hhc, ⟨hfh, hfc⟩, ⟨hdf, hdh, hdc⟩, ⟨hed, hef, heh, hec⟩, fun a =>
    ⟨ddramByte_ne hc a, ddramByte_ne hh a, ddramByte_ne hf a, ddramByte_ne hd a, ddramByte_ne he a⟩⟩

/-- Every command byte decodes to its row, where the rows are disjoint (R74). -/
theorem decodeCmd_rows {c : Config} (hc : c.cmdBytesDistinct) :
    decodeCmd c c.cmdClear = .ok .cmdClear ∧ decodeCmd c c.cmdHome = .ok .cmdHome ∧
      decodeCmd c c.cmdFuncset = .ok .cmdFuncset ∧ decodeCmd c c.initDispctrl = .ok .initDispctrl ∧
      decodeCmd c c.initEntry = .ok .initEntry ∧ ∀ a, decodeCmd c (ddramByte a) = .ok (.setDdramAddr a) := by
  obtain ⟨hhome, ⟨hf1, hf2⟩, ⟨hd1, hd2, hd3⟩, ⟨he1, he2, he3, he4⟩, hddram⟩ := cmdBytesDistinct_ne hc
  simp [decodeCmd, *, msb_ddramByte, extractLsb'_ddramByte]

/-- Decoding an encoded instruction gives it back, where the command-byte rows are disjoint (R68 to R74). -/
theorem decode_encode {c : Config} (hc : c.cmdBytesDistinct) (i : Instr) : decode c (encode c i) = .ok i := by
  obtain ⟨hclear, hhome, hfuncset, hdispctrl, hentry, hddram⟩ := decodeCmd_rows hc
  cases i with
  | lcdInit | lcdCommand | lcdPrintChar | lcdPrintCharAt | lcdPrintString | lcdPrintStringAt =>
    simp [encode, decode, decodeReq]
  | strobeEnable | sendNibble | setCursor => rfl
  | cfgOut | setRs | setE | writeD | delay | fault => simp [encode, decode, decodeItem, decodeUop]
  | cmdClear => exact hclear
  | cmdHome => exact hhome
  | cmdFuncset => exact hfuncset
  | initDispctrl => exact hdispctrl
  | initEntry => exact hentry
  | setDdramAddr a => exact hddram a

/-- Settles O42: each field of an encoded word is read back, and each command byte finds its own row. -/
theorem decodeOfEncode : Obligations.DecodeOfEncode := ⟨fun _ i hc => decode_encode hc i, by decide⟩

/-! ## The defined codes -/

theorem decodeReq_ok_iff (r : Req) : (∃ i, decodeReq r = .ok i) ↔ (reqOp r.word).toNat ≤ 5 := by
  unfold decodeReq
  split
  case h_7 =>
    simp only [imp_false] at *
    exact iff_of_false nofun (by omega)
  all_goals exact iff_of_true ⟨_, rfl⟩ (by omega)

theorem decodeUop_ok_iff (w : BitVec 32) : (∃ i, decodeUop w = .ok i) ↔ (uopCode w).toNat ≤ 5 := by
  unfold decodeUop
  split
  case h_7 =>
    simp only [imp_false] at *
    exact iff_of_false nofun (by omega)
  all_goals exact iff_of_true ⟨_, rfl⟩ (by omega)

theorem decodeMacro_ok_iff (code n : Nibble) (row col : Byte) :
    (∃ i, decodeMacro code n row col = .ok i) ↔ code.toNat ≤ 2 := by
  unfold decodeMacro
  split
  case h_4 =>
    simp only [imp_false] at *
    exact iff_of_false nofun (by omega)
  all_goals exact iff_of_true ⟨_, rfl⟩ (by omega)

/-- The engine move, for an entry that does not decode: the step is refused by name (R76). -/
theorem step_undecodable {s : State} {it : Item} {rest : List Item} {e : DecodeError} (hs : s.safe)
    (huq : s.uq = it :: rest) (he : decodeItem s.cfg it = .error e) : step s = .refused (.undecodable e) := by
  obtain ⟨hf, hr⟩ := hs
  simp only [step, hf, hr, huq, engineMove, he]

/-- Settles O44: each decoder by the branches of its code. -/
theorem reservedEncodingsAreRefused : Obligations.ReservedEncodingsAreRefused :=
  ⟨decodeReq_ok_iff, decodeUop_ok_iff, decodeMacro_ok_iff, fun _ _ _ _ => step_undecodable⟩

/-! ## The fields as numbers -/

theorem extractLsb'_eq_ofNat {w : Nat} (x : BitVec w) (start len : Nat) :
    x.extractLsb' start len = BitVec.ofNat len (x.toNat / 2 ^ start) := by
  rw [← Nat.shiftRight_eq_div_pow]
  rfl

theorem toNat_reqOp (w : BitVec 28) : (reqOp w).toNat = w.toNat % 16 := by
  rw [reqOp, BitVec.extractLsb'_toNat, Nat.shiftRight_zero]

/-- Settles O43: the code selects the row, and each field is a quotient cut to its width. -/
theorem decodersReadTheFields : Obligations.DecodersReadTheFields := by
  refine ⟨fun r => ?_, fun w => ?_⟩
  · refine ⟨?_, ?_, ?_, ?_, ?_, ?_⟩ <;> intro hop <;>
      simp only [decodeReq, toNat_reqOp, hop, reqB, reqRow, reqCol, extractLsb'_eq_ofNat]
  · refine ⟨?_, ?_, ?_, ?_, ?_, ?_⟩ <;> intro hcode <;>
      simp only [decodeUop, toNat_uopCode, hcode, uopV, uopN, uopArg, getLsbD_eq_decide, extractLsb'_eq_ofNat]

/-- Settles O45: the decoders run on the spec's words. -/
theorem specWordsDecode : Obligations.SpecWordsDecode :=
  ⟨rfl, rfl, rfl, rfl, rfl, rfl, rfl, rfl, rfl, rfl, rfl⟩

end Sys2Proof.Machine
end

section
/-! PROOF. The expansions read word for word, at every choice of the waits: O33 and O24. -/

namespace Sys2Proof.Machine

/-! ## The DELAYs of a wait -/

/-- The arguments of the DELAYs of a wait, those of `delays`. -/
def delayArgs (n : Nat) : List (BitVec 24) :=
  List.replicate ((n - 1) / delayMax) (BitVec.ofNat 24 delayMax) ++
    [BitVec.ofNat 24 (n - (n - 1) / delayMax * delayMax)]

/-- The DELAYs of a wait, as instructions. -/
def delayOps (n : Nat) : List Instr := (delayArgs n).map .delay

theorem delayArgs_ne_nil (n : Nat) : delayArgs n ≠ [] := by simp [delayArgs]

/-- The full DELAYs and the remainder, which fits one, make the wait. -/
theorem sum_delayArgs (n : Nat) : ((delayArgs n).map BitVec.toNat).sum = n := by
  have hfull : (BitVec.ofNat 24 delayMax).toNat = delayMax := rfl
  have hle : (n - 1) / delayMax * delayMax ≤ n := by unfold delayMax; omega
  have hrest : n - (n - 1) / delayMax * delayMax < 2 ^ 24 := by unfold delayMax; omega
  simp only [delayArgs, List.map_append, List.map_replicate, List.map_cons, List.map_nil, List.sum_append,
    List.sum_replicate_nat, List.sum_singleton, hfull, BitVec.toNat_ofNat, Nat.mod_eq_of_lt hrest]
  exact Nat.add_sub_of_le hle

theorem delayOps_fit {n : Nat} (h : n ≤ delayMax) : delayOps n = [us n] := by
  have hk : (n - 1) / delayMax = 0 := by unfold delayMax at *; omega
  simp [delayOps, delayArgs, hk, us]

@[simp] theorem readsAs_delays (c : Config) (n : Nat) : readsAs c (delays n) (delayOps n) := by
  simp [readsAs, delays, delayOps, delayArgs]

/-! ## The expansions -/

@[simp] theorem readsAs_seqStrobe (c : Config) : readsAs c (seqStrobe c) (strobeWith delayOps c) := by
  simp [readsAs, seqStrobe, strobeWith]

@[simp] theorem readsAs_seqNibble (c : Config) (n : Nibble) : readsAs c (seqNibble c n) (nibbleWith delayOps c n) := by
  simp [readsAs, seqNibble, nibbleWith]

@[simp] theorem readsAs_seqTransaction (c : Config) (rs : Bool) (b : Byte) (trailing : Nat) :
    readsAs c (seqTransaction c rs b trailing) (transactionWith delayOps c rs b trailing) := by
  simp [readsAs, seqTransaction, seqFrame, transactionWith, hiNibble, loNibble]

/-- The long wait is that of clear and home (R92). -/
theorem commandWait_eq (c : Config) (b : Byte) :
    commandWait c b = if b = c.cmdClear ∨ b = c.cmdHome then c.tExecLong else c.tExecShort := by
  simp [commandWait, isLong]

@[simp] theorem readsAs_seqCmd (c : Config) (b : Byte) : readsAs c (seqCmd c b) (commandWith delayOps c b) := by
  rw [commandWith, ← commandWait_eq]
  exact readsAs_seqTransaction ..

@[simp] theorem readsAs_seqChar (c : Config) (b : Byte) :
    readsAs c (seqChar c b) (transactionWith delayOps c true b c.tChar) :=
  readsAs_seqTransaction ..

theorem readsAs_seqString (c : Config) (s : List Byte) :
    readsAs c (seqString c s)
      ((payload c.stringMode s).flatMap (fun b => transactionWith delayOps c true b c.tChar) ++
        if terminated c.stringMode s = true then [] else [.fault 1]) := by
  cases h : terminated c.stringMode s <;> simp [readsAs, seqString, h, List.map_flatMap]

theorem readsAs_seqSetCursor (c : Config) (row col : Byte) :
    readsAs c (seqSetCursor c row col)
      (match ddramCmd c row col with
      | some a => commandWith delayOps c a
      | none => []) := by
  cases h : ddramCmd c row col <;> simp [readsAs, seqSetCursor, h]

theorem readsAs_seqInit (c : Config) :
    readsAs c (seqInit c)
      ([.cfgOut, .setRs false, .setE false] ++ delayOps c.tPower ++ nibbleWith delayOps c c.nibReset ++
        delayOps c.tReset1 ++ nibbleWith delayOps c c.nibReset ++ delayOps c.tReset2 ++
        nibbleWith delayOps c c.nibReset ++ delayOps c.tReset3 ++ nibbleWith delayOps c c.nib4Bit ++
        commandWith delayOps c c.cmdFuncset ++ commandWith delayOps c c.cmdClear ++
        commandWith delayOps c c.initDispctrl ++ commandWith delayOps c c.initEntry ++ delayOps c.tFinal) := by
  simp [readsAs, seqInit, initSegments]

theorem ddramByte_eq_ofNat (a : BitVec 7) : ddramByte a = BitVec.ofNat 8 (128 + a.toNat) := by
  apply BitVec.eq_of_toNat_eq
  rw [ddramByte, BitVec.toNat_append, ← Nat.shiftLeft_add_eq_or_of_lt a.isLt, BitVec.toNat_ofNat]
  exact (Nat.mod_eq_of_lt (by omega)).symm

/-- Settles O33: the DELAYs of `delays`, and each expansion read with them. -/
theorem longWaitsAreSplitAndSumUp : Obligations.LongWaitsAreSplitAndSumUp := by
  refine fun c => ⟨delayOps, fun n => ⟨delayArgs n, rfl, delayArgs_ne_nil n, sum_delayArgs n, delayOps_fit⟩,
    readsAs_seqStrobe c, readsAs_seqNibble c, readsAs_seqCmd c, readsAs_seqChar c, readsAs_seqString c,
    readsAs_seqSetCursor c, readsAs_seqCmd .., readsAs_seqCmd .., readsAs_seqCmd .., readsAs_seqCmd ..,
    readsAs_seqCmd .., fun a => ?_, readsAs_seqInit c, ?_⟩
  · rw [← ddramByte_eq_ofNat]
    exact readsAs_seqCmd ..
  · rintro s i rfl (rfl | ⟨n, rfl⟩ | ⟨row, col, rfl⟩ | rfl | rfl | rfl | rfl | rfl | ⟨a, rfl⟩) <;> rfl

/-! ## Command bytes at waits that fit -/

theorem transactionWith_fit {c : Config} (hc : c.fits) (rs : Bool) (b : Byte) {trailing : Nat}
    (h : trailing ≤ delayMax) : transactionWith delayOps c rs b trailing = transactionOps c rs b trailing := by
  obtain ⟨hrs, hbus, hen, -⟩ := hc
  simp [transactionWith, transactionOps, nibbleWith, nibbleOps, strobeWith, delayOps_fit, *]

theorem readsAs_seqCmd_long {c : Config} (hc : c.fits) {b : Byte} (hb : b = c.cmdClear ∨ b = c.cmdHome) :
    readsAs c (seqCmd c b) (transactionOps c false b c.tExecLong) := by
  have ⟨_, _, _, hlong, _⟩ := hc
  rw [seqCmd, commandWait_eq, if_pos hb, ← transactionWith_fit hc false b hlong]
  exact readsAs_seqTransaction ..

theorem readsAs_seqCmd_short {c : Config} (hc : c.fits) {b : Byte} (hclear : b ≠ c.cmdClear) (hhome : b ≠ c.cmdHome) :
    readsAs c (seqCmd c b) (transactionOps c false b c.tExecShort) := by
  have ⟨_, _, _, _, hshort, _⟩ := hc
  rw [seqCmd, commandWait_eq, if_neg (not_or.mpr ⟨hclear, hhome⟩), ← transactionWith_fit hc false b hshort]
  exact readsAs_seqTransaction ..

/-- Settles O24: each is pushed as the command of its byte, and no byte of the other rows is clear's or home's. -/
theorem commandBytesRunTheCommandPath : Obligations.CommandBytesRunTheCommandPath := by
  intro s hfits hdistinct
  obtain ⟨-, ⟨hfHome, hfClear⟩, ⟨-, hdHome, hdClear⟩, ⟨-, -, heHome, heClear⟩, hddram⟩ := cmdBytesDistinct_ne hdistinct
  refine ⟨⟨_, rfl, readsAs_seqCmd_long hfits (.inl rfl)⟩, ⟨_, rfl, readsAs_seqCmd_long hfits (.inr rfl)⟩,
    ⟨_, rfl, readsAs_seqCmd_short hfits hfClear hfHome⟩, ⟨_, rfl, readsAs_seqCmd_short hfits hdClear hdHome⟩,
    ⟨_, rfl, readsAs_seqCmd_short hfits heClear heHome⟩, fun a => ⟨_, rfl, ?_⟩⟩
  obtain ⟨haClear, haHome, -⟩ := hddram a
  rw [← ddramByte_eq_ofNat]
  exact readsAs_seqCmd_short hfits haClear haHome

end Sys2Proof.Machine
end

section
/-! PROOF. The micro-ops, one by one: CFG_OUT (O17), SET_RS (O18), SET_E (O19), DELAY and FAULT (O21), and the draw that
the others take (O22). -/

namespace Sys2Proof.Machine

/-! ## Their words -/

theorem decodeUop_cfgOut {w : BitVec 32} (h : w.toNat % 8 = 0) : decodeUop w = .ok .cfgOut := by
  simp only [decodeUop, toNat_uopCode, h]

theorem decodeUop_setRs {w : BitVec 32} (h : w.toNat % 8 = 1) : decodeUop w = .ok (.setRs (w.getLsbD 3)) := by
  simp only [decodeUop, toNat_uopCode, h, uopV]

theorem decodeUop_setE {w : BitVec 32} (h : w.toNat % 8 = 2) : decodeUop w = .ok (.setE (w.getLsbD 3)) := by
  simp only [decodeUop, toNat_uopCode, h, uopV]

theorem decodeUop_delay {w : BitVec 32} (h : w.toNat % 8 = 4) : decodeUop w = .ok (.delay (w.extractLsb' 8 24)) := by
  simp only [decodeUop, toNat_uopCode, h, uopArg]

theorem decodeUop_fault {w : BitVec 32} (h : w.toNat % 8 = 5) : decodeUop w = .ok (.fault (w.extractLsb' 8 24)) := by
  simp only [decodeUop, toNat_uopCode, h, uopArg]

/-! ## CFG_OUT and SET_RS -/

/-- A plain micro-op changes nothing of the frame (R82 to R86). -/
theorem exec_plain_sequencerSame {i : Instr} (hi : isPlain i = true) {s t : State} (h : exec i s = .next t) :
    sequencerSame s t := by
  obtain ⟨hcur, huq, hupc, hfault⟩ := exec_plain_keeps hi h
  obtain ⟨hcfg, hmem, hhostq, hrefused⟩ := exec_keeps h
  have hinit : t.initCount = s.initCount := by
    cases i with
    | setE v => cases h; split <;> rfl
    | cfgOut | setRs | writeD | delay => cases h; rfl
    | _ => cases hi
  exact ⟨hcfg, hcur, huq, hupc, hfault, hrefused, hinit, hmem, hhostq⟩

/-- A bit that has been set reads as it was set (R39). -/
theorem Regs.bit_setLevel_same (m : List Host.Cell) (p : PortRef) (k : Fin 8) (v : Bool) :
    Regs.bit (Regs.setLevel m p k v) p k = v := by
  rw [Regs.bit_setLevel, if_pos ⟨rfl, rfl⟩]

/-- Pins made outputs are outputs (R39). -/
theorem bit_outputPins_of_mem {pins : List (PortRef × Fin 8)} {p : PortRef} {k : Fin 8} (hp : (p, k) ∈ pins)
    (m : List Host.Cell) : Regs.bit (outputPins m pins) p k = true := by
  induction pins generalizing m with
  | nil => cases hp
  | cons pin pins ih =>
    by_cases hmem : (p, k) ∈ pins
    · exact ih hmem _
    · obtain rfl : (p, k) = pin := (List.mem_cons.mp hp).resolve_right hmem
      exact (bit_outputPins_of_not_mem hmem _).trans (Regs.bit_setLevel_same m p k true)

/-- With the six pins of the handle made outputs, all lines are driven (R22). -/
theorem linesDriven_of_outputPins {s : State} {m : List Host.Cell} (h : s.ddrs = outputPins m s.cfg.handle.pins) :
    s.linesDriven := by
  have hpin {p : PortRef} {k : Fin 8} (hp : (p, k) ∈ s.cfg.handle.pins) : Regs.bit s.ddrs p k = true :=
    h ▸ bit_outputPins_of_mem hp m
  refine ⟨hpin (by simp [Handle.pins]), hpin (by simp [Handle.pins]), busNibble_eq ?_ ?_ ?_ ?_⟩ <;>
    exact hpin (by simp [Handle.pins])

/-- Settles O17: the directions are those of the six pins made outputs, one after the other. -/
theorem cfgOutMakesSixOutputs : Obligations.CfgOutMakesSixOutputs := by
  refine ⟨fun w => decodeUop_cfgOut, fun s => ?_⟩
  have hexec := exec_cfgOut s
  exact ⟨_, hexec, linesDriven_of_outputPins rfl, rfl, fun p k hp => (exec_keeps_other_bits hexec hp).2, rfl,
    drawAfter_drawTime rfl rfl, rfl, exec_plain_sequencerSame rfl hexec⟩

/-- Settles O18: one bit of one port is set. -/
theorem setRsDrivesRs : Obligations.SetRsDrivesRs := by
  refine ⟨fun w => decodeUop_setRs, fun s v => ?_⟩
  exact ⟨_, rfl, Regs.bit_setLevel_same .., rfl, fun p k hp => Regs.bit_setLevel_of_ne hp .., rfl,
    drawAfter_drawTime rfl rfl, rfl, exec_plain_sequencerSame (i := .setRs v) rfl rfl⟩

/-! ## SET_E -/

/-- E written, with the event of it (R84). -/
def State.writeE (s : State) (v : Bool) : State :=
  (s.writePin s.cfg.handle.enPort s.cfg.handle.enBit v).emit (.pin s.t .e v)

/-- A falling edge of a driven E (R54). -/
abbrev State.fallingEdge (s : State) (v : Bool) : Prop := s.outE = true ∧ v = false ∧ s.dirE = true

/-- SET_E writes E; a falling edge of a driven E is a latch (R54, R84). -/
theorem exec_setE (v : Bool) (s : State) :
    exec (.setE v) s = .next (if s.fallingEdge v then (s.writeE v).latch else s.writeE v).drawTime := rfl

theorem exec_setE_of_edge {s : State} {v : Bool} (h : s.fallingEdge v) :
    exec (.setE v) s = .next (s.writeE v).latch.drawTime := by
  rw [exec_setE, if_pos h]

theorem exec_setE_of_no_edge {s : State} {v : Bool} (h : ¬ s.fallingEdge v) :
    exec (.setE v) s = .next (s.writeE v).drawTime := by
  rw [exec_setE, if_neg h]

/-- A latch after E is written takes the lines as they stood before, and the observer takes it (R54, R55). -/
theorem State.latch_writeE {s : State} (hwf : s.cfg.handle.wf) (v : Bool) :
    (s.writeE v).latch.trace = s.trace ++ [.pin s.t .e v, .latch s.t s.sampleRs s.sampleD] ∧
      (s.writeE v).latch.obs = s.obs.latch s.cfg s.t s.sampleRs s.sampleD := by
  obtain ⟨hrs, hd⟩ := State.sample_writeE (u := s.writeE v) hwf rfl rfl rfl
  rw [State.latch_trace, State.latch_obs, hrs, hd]
  exact ⟨List.append_assoc .., rfl⟩

/-- Settles O19: with an edge or without one, E is the one bit written; the edge adds the latch. -/
theorem setEDrivesEnableAndLatches : Obligations.SetEDrivesEnableAndLatches := by
  refine ⟨fun w => decodeUop_setE, fun s v hwf => ?_⟩
  by_cases hedge : s.fallingEdge v
  · have hexec := exec_setE_of_edge hedge
    refine ⟨_, hexec, Regs.bit_setLevel_same .., rfl, fun p k hp => Regs.bit_setLevel_of_ne hp .., ?_,
      drawAfter_drawTime rfl rfl, exec_plain_sequencerSame rfl hexec⟩
    rw [if_pos hedge]
    exact State.latch_writeE hwf v
  · have hexec := exec_setE_of_no_edge hedge
    refine ⟨_, hexec, Regs.bit_setLevel_same .., rfl, fun p k hp => Regs.bit_setLevel_of_ne hp .., ?_,
      drawAfter_drawTime rfl rfl, exec_plain_sequencerSame rfl hexec⟩
    rw [if_neg hedge]
    exact ⟨rfl, rfl⟩

/-! ## DELAY and FAULT -/

/-- A state with a fault completes nothing (R34). -/
theorem State.finish_of_fault {s : State} {r : BitVec 24} (h : s.fault = some r) : s.finish = s := by
  rcases s.finish_cases with ⟨_, _, hnone, _⟩ | ⟨hfin, _⟩
  · rw [h] at hnone
    cases hnone
  · exact hfin

/-- The step that executes a FAULT raises it and completes nothing (R34, R87). -/
theorem step_fault {s : State} {it : Item} {rest : List Item} {r : BitVec 24} (hs : s.safe) (huq : s.uq = it :: rest)
    (hit : decodeItem s.cfg it = .ok (.fault r)) : step s = .next ((s.popItem it rest).raiseFault r) := by
  have hstep := step_engine hs huq hit (exec_fault r _)
  rwa [State.finish_of_fault (r := r) rfl] at hstep

/-- A FAULT is no plain micro-op. -/
theorem not_plainOp_of_fault {c : Config} {it : Item} {r : BitVec 24} (h : decodeItem c it = .ok (.fault r)) :
    ¬ PlainOp it := by
  rintro ⟨w, j, rfl, hj, hplain⟩
  obtain rfl : j = .fault r := Except.ok.inj (hj.symm.trans h)
  cases hplain

/-- An entry after plain micro-ops that is none itself is the FAULT that ends the list. -/
theorem last_of_not_plainOp {l l1 l2 : List Item} {b : Bool} {it : Item} (hl : PlainOps l)
    (h : l ++ faultTail b = l1 ++ it :: l2) (hit : ¬ PlainOp it) : it = uFault 1 ∧ l2 = [] ∧ b = true := by
  have htail {m : List Item} (hm : faultTail b = m ++ it :: l2) : it = uFault 1 ∧ l2 = [] ∧ b = true := by
    cases b with
    | false => simp [faultTail] at hm
    | true =>
      have hlength := congrArg List.length hm
      simp only [faultTail, if_pos, List.length_append, List.length_cons, List.length_nil] at hlength
      obtain rfl : m = [] := List.eq_nil_of_length_eq_zero (by omega)
      obtain ⟨hhead, hrest⟩ := List.cons.inj hm
      exact ⟨hhead.symm, hrest.symm, rfl⟩
  rcases List.append_eq_append_iff.mp h with ⟨m, _, hm⟩ | ⟨m, rfl, hm⟩
  · exact htail hm
  · cases m with
    | nil => exact htail (m := []) hm.symm
    | cons x m =>
      obtain ⟨rfl, -⟩ := List.cons.inj hm
      exact absurd (plainOps_cons.mp (plainOps_append.mp hl).2).1 hit

/-- A FAULT in a request's expansion stands last, with reason 1, for an unterminated string (R87, R96). -/
theorem fault_of_expand {c : Config} {i : Instr} {l1 l2 : List Item} {it : Item} {r : BitVec 24}
    (hi : isRequest i = true) (hexpand : expand c i = l1 ++ it :: l2) (hit : decodeItem c it = .ok (.fault r)) :
    l2 = [] ∧ r = 1 ∧ endsInFault c i = true := by
  obtain ⟨l, hl, hform⟩ := expand_request_form c hi
  obtain ⟨rfl, hlast, hend⟩ := last_of_not_plainOp hl (hform.symm.trans hexpand) (not_plainOp_of_fault hit)
  rw [decodeItem_uFault] at hit
  exact ⟨hlast, (Instr.fault.inj (Except.ok.inj hit)).symm, hend⟩

/-- Settles O21: the step at a FAULT is `raiseFault`, and in an expansion only the last entry is no plain micro-op. -/
theorem delayWaitsAndFaultStops : Obligations.DelayWaitsAndFaultStops := by
  refine ⟨fun w => ⟨decodeUop_delay, decodeUop_fault⟩, fun s n => rfl, fun s r => rfl, ?_,
    fun c i l1 l2 it r => fault_of_expand⟩
  intro s it rest r hs huq hit
  exact ⟨_, step_fault hs huq hit, rfl, rfl, rfl, rfl, rfl, step_of_fault rfl⟩

/-! ## The draw of a micro-op -/

/-- At least one event, all of the present, and then a draw (R81). -/
def emitsAndDraws (s t : State) : Prop :=
  drawAfter s t ∧ ∃ es, es ≠ [] ∧ t.trace = s.trace ++ es ∧ ∀ e ∈ es, e.time = s.t

theorem emitsAndDraws_of_emit {s u : State} (e : Event) (he : e.time = s.t) (hcfg : u.cfg = s.cfg) (ht : u.t = s.t)
    (htrace : u.trace = s.trace) : emitsAndDraws s (u.emit e).drawTime :=
  ⟨drawAfter_drawTime hcfg ht, [e], List.cons_ne_nil e [], congrArg (· ++ [e]) htrace, List.forall_mem_singleton.mpr he⟩

/-- SET_E emits its Pin event, and the Latch of an edge, before its draw (R81, R84). -/
theorem exec_setE_emitsAndDraws {s t : State} {v : Bool} (h : exec (.setE v) s = .next t) : emitsAndDraws s t := by
  by_cases hedge : s.fallingEdge v
  · rw [exec_setE_of_edge hedge] at h
    cases h
    exact ⟨drawAfter_drawTime rfl rfl, [.pin s.t .e v, .latch s.t (s.writeE v).sampleRs (s.writeE v).sampleD],
      List.cons_ne_nil _ _, List.append_assoc .., by simp [Event.time]⟩
  · rw [exec_setE_of_no_edge hedge] at h
    cases h
    exact emitsAndDraws_of_emit _ rfl rfl rfl rfl

/-- Settles O22: one case per micro-op. -/
theorem microOpsTakeABoundedDraw : Obligations.MicroOpsTakeABoundedDraw := by
  refine fun s t i h => ⟨?_, ?_, ?_⟩
  · rintro (rfl | ⟨v, rfl⟩ | ⟨v, rfl⟩ | ⟨n, rfl⟩)
    · rw [exec_cfgOut] at h
      cases h
      exact emitsAndDraws_of_emit _ rfl rfl rfl rfl
    · cases h
      exact emitsAndDraws_of_emit _ rfl rfl rfl rfl
    · exact exec_setE_emitsAndDraws h
    · cases h
      exact emitsAndDraws_of_emit _ rfl rfl rfl rfl
  · rintro n rfl
    cases h
    exact ⟨rfl, rfl⟩
  · rintro r rfl
    cases h
    exact ⟨rfl, rfl⟩

end Sys2Proof.Machine
end

section
/-! PROOF. The internal composites at waits that fit, O23. -/

namespace Sys2Proof.Machine

theorem strobeWith_fit {c : Config} (hc : c.fits) :
    strobeWith delayOps c = [us c.tBusSettle, .setE true, us c.tEnHigh, .setE false] := by
  obtain ⟨_, hbus, hen, _⟩ := hc
  simp [strobeWith, delayOps_fit hbus, delayOps_fit hen]

theorem nibbleWith_fit {c : Config} (hc : c.fits) (n : Nibble) : nibbleWith delayOps c n = nibbleOps c n := by
  rw [nibbleWith, strobeWith_fit hc]
  rfl

theorem commandWith_fit {c : Config} (hc : c.fits) (b : Byte) : commandWith delayOps c b = commandOps c b := by
  have ⟨_, _, _, hlong, hshort, _⟩ := hc
  refine transactionWith_fit hc false b ?_
  split
  · exact hlong
  · exact hshort

/-- The sum of the address function on integers, without the subtraction (R101). -/
theorem addressByte_eq_ofNat (base col : Byte) : addressByte base col = BitVec.ofNat 8 (base.toNat + col.toNat + 255) := by
  apply BitVec.eq_of_toNat_eq
  rw [addressByte, BitVec.toNat_ofInt, BitVec.toNat_ofNat]
  omega

/-- A cursor move reads as the command of its address, and as nothing for a row outside 1 and 2 (R101, R102). -/
theorem readsAs_seqSetCursor_fit {c : Config} (hc : c.fits) (row col : Byte) :
    readsAs c (seqSetCursor c row col)
      (if row = 1 then commandOps c (BitVec.ofNat 8 (c.row1Base.toNat + col.toNat + 255))
      else if row = 2 then commandOps c (BitVec.ofNat 8 (c.row2Base.toNat + col.toNat + 255))
      else []) := by
  have h := readsAs_seqSetCursor c row col
  rw [ddramCmd] at h
  simp only [← addressByte_eq_ofNat, ← commandWith_fit hc]
  by_cases hfirst : row = 1
  · rw [if_pos hfirst] at h ⊢
    exact h
  · by_cases hsecond : row = 2
    · rw [if_neg hfirst, if_pos hsecond] at h ⊢
      exact h
    · rw [if_neg hfirst, if_neg hsecond] at h ⊢
      exact h

/-- Settles O23: each is pushed as its expansion, whose waits are one DELAY each. -/
theorem compositesExpandInPlace : Obligations.CompositesExpandInPlace := by
  intro s hfits
  have hstrobe := readsAs_seqStrobe s.cfg
  rw [strobeWith_fit hfits] at hstrobe
  refine ⟨⟨_, rfl, hstrobe⟩, fun n => ⟨_, rfl, ?_⟩,
    fun row col => ⟨_, rfl, readsAs_seqSetCursor_fit hfits row col⟩⟩
  have hnibble := readsAs_seqNibble s.cfg n
  rwa [nibbleWith_fit hfits] at hnibble

end Sys2Proof.Machine
end

section
/-! PROOF. Transactions and strings as micro-ops: O26, O30, O31 and O32. -/

namespace Sys2Proof.Machine

/-! ## Commands and characters -/

theorem readsAs_seqCmd_fit {c : Config} (hc : c.fits) (b : Byte) : readsAs c (seqCmd c b) (commandOps c b) :=
  commandWith_fit hc b ▸ readsAs_seqCmd c b

/-- A character's waits as one DELAY each (R94). -/
theorem charWith_fit {c : Config} (hc : c.fits) (b : Byte) :
    transactionWith delayOps c true b c.tChar = charOps c b := by
  have ⟨_, _, _, _, _, hchar, _⟩ := hc
  exact transactionWith_fit hc true b hchar

theorem readsAs_seqChar_fit {c : Config} (hc : c.fits) (b : Byte) : readsAs c (seqChar c b) (charOps c b) :=
  charWith_fit hc b ▸ readsAs_seqChar c b

/-- Settles O26: `commandOps` and `charOps`, written out. -/
theorem commandAndCharacterTransactions : Obligations.CommandAndCharacterTransactions :=
  fun _ b hfits => ⟨readsAs_seqCmd_fit hfits b, readsAs_seqChar_fit hfits b⟩

/-! ## The payload of a string -/

/-- The payload ends at the least index that holds 0x00 (R95). -/
theorem payload_of_first_nul {s : List Byte} {k : Nat} (hk : s[k]? = some 0x00)
    (hleast : ∀ j < k, s[j]? ≠ some 0x00) : payload .nulTerminated s = s.take k := by
  obtain ⟨hlt, hnul⟩ := List.getElem?_eq_some_iff.mp hk
  have hindex : s.findIdx (fun b => !(b != 0x00)) = k := by
    rw [List.findIdx_eq hlt]
    refine ⟨by simp [hnul], fun j hj => ?_⟩
    have hne := hleast j hj
    rw [List.getElem?_eq_getElem (Nat.lt_trans hj hlt)] at hne
    simpa using hne
  rw [payload, List.takeWhile_eq_take_findIdx_not, hindex]

/-- An object is terminated exactly if it holds a 0x00 (R95). -/
theorem terminated_iff (s : List Byte) : terminated .nulTerminated s = true ↔ 0x00 ∈ s := by
  simp [terminated]

/-- Without a 0x00 the whole object is the payload (R95). -/
theorem payload_of_no_nul {s : List Byte} (h : 0x00 ∉ s) : payload .nulTerminated s = s := by
  have hindex : s.findIdx (fun b => !(b != 0x00)) = s.length := by
    rw [List.findIdx_eq_length]
    intro b hb
    have hne : b ≠ 0x00 := fun hnul => h (hnul ▸ hb)
    simp only [bne_iff_ne.mpr hne, Bool.not_true]
  rw [payload, List.takeWhile_eq_take_findIdx_not, hindex, List.take_length]

/-- Settles O30: by the index of the first 0x00, or with no 0x00 in the object. -/
theorem payloadEndsAtTheFirstNul : Obligations.PayloadEndsAtTheFirstNul := by
  refine fun s => ⟨fun k hk hleast => ?_, fun hnone => ?_, rfl, rfl⟩
  · exact ⟨payload_of_first_nul hk hleast, (terminated_iff s).mpr (List.mem_of_getElem? hk)⟩
  · have hnul : 0x00 ∉ s := fun hmem => (List.getElem?_of_mem hmem).elim hnone
    exact ⟨payload_of_no_nul hnul, Bool.eq_false_iff.mpr fun h => hnul ((terminated_iff s).mp h)⟩

/-! ## Strings as characters -/

/-- A string at waits that fit: the characters of its payload, and a FAULT 1 if it is unterminated (R96). -/
theorem readsAs_seqString_fit {c : Config} (hc : c.fits) (s : List Byte) :
    readsAs c (seqString c s)
      ((payload c.stringMode s).flatMap (charOps c) ++ if terminated c.stringMode s = true then [] else [.fault 1]) := by
  have h := readsAs_seqString c s
  simpa only [charWith_fit hc] using h

/-- A list has as many entries as the instructions it reads as. -/
theorem length_eq_of_readsAs {c : Config} {l : List Item} {is : List Instr} (h : readsAs c l is) :
    l.length = is.length := by
  simpa using congrArg List.length h

/-- Thirteen micro-ops a character (R94). -/
theorem length_flatMap_charOps (c : Config) (p : List Byte) : (p.flatMap (charOps c)).length = 13 * p.length := by
  have hchar (b : Byte) : (charOps c b).length = 13 := rfl
  induction p with
  | nil => rfl
  | cons b p ih =>
    rw [List.flatMap_cons, List.length_append, ih, hchar, List.length_cons]
    omega

/-- Settles O31: the length is that of the instructions read. -/
theorem stringsAreCharactersThenFault : Obligations.StringsAreCharactersThenFault := by
  intro c s hfits
  have hreads := readsAs_seqString_fit hfits s
  refine ⟨hreads, (length_eq_of_readsAs hreads).trans ?_⟩
  rw [List.length_append, length_flatMap_charOps, apply_ite List.length]
  rfl

/-! ## Bytes that are not read -/

/-- The payload is decided by the bytes up to any 0x00 (R95). -/
theorem payload_take_of_nul {s : List Byte} {k : Nat} (hk : s[k]? = some 0x00) :
    payload .nulTerminated (s.take (k + 1)) = payload .nulTerminated s := by
  simp only [payload]
  induction s generalizing k with
  | nil => rfl
  | cons b s ih =>
    cases k with
    | zero =>
      obtain rfl : b = 0x00 := Option.some.inj hk
      rfl
    | succ k => rw [List.take_succ_cons, List.takeWhile_cons, List.takeWhile_cons, ih hk]

/-- Two objects that agree up to a 0x00 are both terminated and have one payload (R95). -/
theorem payload_eq_of_take_eq {s t : List Byte} {k : Nat} (hk : s[k]? = some 0x00)
    (ht : t.take (k + 1) = s.take (k + 1)) :
    payload .nulTerminated t = payload .nulTerminated s ∧
      terminated .nulTerminated t = terminated .nulTerminated s := by
  have hkt : t[k]? = some 0x00 := by
    rw [← hk, ← List.getElem?_take_of_lt (Nat.lt_succ_self k), ht, List.getElem?_take_of_lt (Nat.lt_succ_self k)]
  refine ⟨by rw [← payload_take_of_nul hkt, ht, payload_take_of_nul hk], ?_⟩
  rw [(terminated_iff t).mpr (List.mem_of_getElem? hkt), (terminated_iff s).mpr (List.mem_of_getElem? hk)]

/-- A string's expansion is decided by its payload and by whether it is terminated (R96). -/
theorem seqString_congr {c : Config} {s t : List Byte} (hpayload : payload c.stringMode t = payload c.stringMode s)
    (hterminated : terminated c.stringMode t = terminated c.stringMode s) : seqString c t = seqString c s := by
  rw [seqString, seqString, hpayload, hterminated]

/-- A row outside 1 and 2 whose body is not sent drops the body (R103). -/
theorem seqAt_of_not_sent {c : Config} {row : Byte} (hsends : c.invalidRowSendsData = false) (h1 : row ≠ 1)
    (h2 : row ≠ 2) (col : Byte) (body : List Item) : seqAt c row col body = seqSetCursor c row col := by
  have hno : ¬ (row = 1 ∨ row = 2 ∨ c.invalidRowSendsData = true) := by simp only [h1, h2, hsends]; decide
  rw [seqAt, if_neg hno, List.append_nil]

/-- Settles O32: both objects have one payload and are terminated; and an invalid row drops the body, FAULT and all. -/
theorem unreadBytesDoNotMatter : Obligations.UnreadBytesDoNotMatter := by
  constructor
  · intro c s t k hmode hk ht
    obtain ⟨hpayload, hterminated⟩ := payload_eq_of_take_eq hk ht
    rw [← hmode] at hpayload hterminated
    have hseq := seqString_congr hpayload hterminated
    simp only [expand, endsInFault, hseq, hterminated, implies_true, and_self]
  · intro c s t row col hsends h1 h2
    constructor
    · simp only [expand, seqAt_of_not_sent hsends h1 h2]
    · simp only [endsInFault, beq_eq_false_iff_ne.mpr h1, beq_eq_false_iff_ne.mpr h2, hsends, Bool.or_false,
        Bool.and_false]

end Sys2Proof.Machine
end

section
/-! PROOF. A clear at the controller, O54. -/

namespace Sys2Proof.Machine

/-- What a clear leaves: the DDRAM all 0x20, the counter at 0, increment set in a known entry mode, no shift; mode M4H and
busy until `busy` (R61, R62). -/
def Observer.cleared (o : Observer) (busy : Nat) : Observer :=
  { o with mode := .m4h, ddram := Cells.fill 0x20, ac := .ddram 0x00, entry := o.entry.map (fun e => e ||| 0x02)
           shift := .zero, busyUntil := busy }

/-- In mode M4H the two nibbles of 0x01, in time, clear (R61, R62). -/
theorem Observer.latch_clear {o : Observer} {t1 t2 : Nat} (hmode : o.mode = .m4h) (h1 : o.busyUntil ≤ t1) (h12 : t1 ≤ t2)
    (c : Config) :
    (o.latch c t1 (some false) (some 0x0)).latch c t2 (some false) (some 0x1) = o.cleared (t2 + c.obsExecLong) := by
  have h2 : ({ o with mode := .m4l false 0x0 } : Observer).busyUntil ≤ t2 := Nat.le_trans h1 h12
  rw [Observer.latch_in_time h1, Observer.latchChecked_m4h hmode, Observer.latch_in_time h2,
    Observer.latchChecked_m4l rfl, Observer.latchLow_same_rs]
  rfl

/-- A second clear changes nothing but the busy time (R100). -/
theorem Observer.cleared_cleared (o : Observer) (b1 b2 : Nat) :
    (o.cleared b1).cleared b2 = { o.cleared b1 with busyUntil := b2 } := by
  cases h : o.entry with
  | none => simp [Observer.cleared, h]
  | some e => simp [Observer.cleared, h, BitVec.or_assoc]

/-- Settles O54: both pairs of latches clear. -/
theorem clearIsIdempotent : Obligations.ClearIsIdempotent := by
  rintro c o _ _ t1 t2 t3 t4 hmode _ h1 h12 rfl h3 h34 rfl
  rw [Observer.latch_clear hmode h1 h12] at h3 ⊢
  rw [Observer.latch_clear rfl h3 h34, Observer.cleared_cleared]
  refine ⟨fun a ha => ?_, rfl, rfl, rfl, rfl, rfl, rfl⟩
  exact (Cells.read_fill 0x20 a).trans (if_pos ha)

end Sys2Proof.Machine
end

section
/-! PROOF. O38: a transaction, micro-op by micro-op. Each one moves the levels of the six lines as its row of R72 says and
adds its latch events; a run is followed by the levels, the latches and the time. -/

namespace Sys2Proof.Machine

/-! ## The levels of the lines -/

/-- The levels at a handle's pins in a port space (R21). -/
def linesAt (h : Handle) (m : List Host.Cell) : Lines :=
  { rs := Regs.bit m h.rsPort h.rsBit, e := Regs.bit m h.enPort h.enBit, d := busNibble h (Regs.read m h.dPort) }

/-- out[RS], out[E] and out[D] (R21). -/
def State.lines (s : State) : Lines := linesAt s.cfg.handle s.ports

/-- The levels that a micro-op leaves (R83 to R86). -/
def linesAfter (x : Lines) (i : Instr) : Lines :=
  match i with
  | .setRs v => { x with rs := v }
  | .setE v => { x with e := v }
  | .writeD n => { x with d := n }
  | _ => x

/-- The nibble on the data lines is decided by the four data bits (R21). -/
theorem busNibble_congr {h : Handle} {a b : Byte} (hbits : ∀ k ∈ dataBits h, a.getLsbD k.val = b.getLsbD k.val) :
    busNibble h a = busNibble h b := by
  simp only [dataBits, List.forall_mem_cons] at hbits
  obtain ⟨h4, h5, h6, h7, -⟩ := hbits
  rw [busNibble, busNibble, h4, h5, h6, h7]

/-- Setting a pin that is no data pin leaves the data lines as they are (R39). -/
theorem busNibble_setLevel_of_not_data {h : Handle} {p : PortRef} {k : Fin 8} (hp : ¬ (p = h.dPort ∧ k ∈ dataBits h))
    (m : List Host.Cell) (v : Bool) :
    busNibble h (Regs.read (Regs.setLevel m p k v) h.dPort) = busNibble h (Regs.read m h.dPort) :=
  busNibble_congr fun _ hj => Regs.bit_setLevel_of_ne (fun hpin => hp ⟨hpin.1.symm, by rwa [← hpin.2]⟩) m v

theorem linesAt_setRs {h : Handle} (hwf : h.wf) (m : List Host.Cell) (v : Bool) :
    linesAt h (Regs.setLevel m h.rsPort h.rsBit v) = { linesAt h m with rs := v } := by
  obtain ⟨_, hrsE, hrsD, _⟩ := (handle_wf_iff h).mp hwf
  rw [linesAt, Regs.bit_setLevel_same, Regs.bit_setLevel_of_ne (fun hpin => hrsE ⟨hpin.1.symm, hpin.2.symm⟩),
    busNibble_setLevel_of_not_data hrsD, linesAt]

theorem linesAt_setE {h : Handle} (hwf : h.wf) (m : List Host.Cell) (v : Bool) :
    linesAt h (Regs.setLevel m h.enPort h.enBit v) = { linesAt h m with e := v } := by
  obtain ⟨_, hrsE, _, heD⟩ := (handle_wf_iff h).mp hwf
  rw [linesAt, Regs.bit_setLevel_same, Regs.bit_setLevel_of_ne hrsE, busNibble_setLevel_of_not_data heD, linesAt]

theorem linesAt_writeD {h : Handle} (hwf : h.wf) (m : List Host.Cell) (n : Nibble) :
    linesAt h (Regs.maskWrite m h.dPort (dMask h) (dValue h n)) = { linesAt h m with d := n } := by
  obtain ⟨_, _, hrsD, heD⟩ := (handle_wf_iff h).mp hwf
  rw [linesAt, Regs.bit_maskWrite_dMask_of_not_data hrsD, Regs.bit_maskWrite_dMask_of_not_data heD,
    busNibble_maskWrite hwf, linesAt]

/-- At well-formed pins a plain micro-op moves the lines as its row says (R82 to R86). -/
theorem exec_plain_lines {i : Instr} (hi : isPlain i = true) {s t : State} (hwf : s.cfg.handle.wf)
    (h : exec i s = .next t) : t.lines = linesAfter s.lines i := by
  cases i with
  | cfgOut => rw [exec_cfgOut] at h; cases h; rfl
  | setRs v => cases h; exact linesAt_setRs hwf s.ports v
  | setE v => cases h; split <;> exact linesAt_setE hwf s.ports v
  | writeD n => cases h; exact linesAt_writeD hwf s.ports n
  | delay n => cases h; rfl
  | _ => cases hi

/-- A plain micro-op other than CFG_OUT writes no direction (R22). -/
theorem exec_plain_ddrs {i : Instr} (hi : isPlain i = true) (hne : i ≠ .cfgOut) {s t : State}
    (h : exec i s = .next t) : t.ddrs = s.ddrs := by
  cases i with
  | cfgOut => exact absurd rfl hne
  | setRs | writeD | delay => cases h; rfl
  | setE v => cases h; split <;> rfl
  | _ => cases hi

/-! ## Time of the expansions -/

@[simp] theorem totalWait_nil (c : Config) : totalWait c [] = 0 := rfl

@[simp] theorem totalDraws_nil (c : Config) : totalDraws c [] = 0 := rfl

theorem totalWait_cons (c : Config) (it : Item) (l : List Item) :
    totalWait c (it :: l) = itemWait c it + totalWait c l := by
  simp [totalWait]

theorem totalDraws_cons (c : Config) (it : Item) (l : List Item) :
    totalDraws c (it :: l) = itemDraws c it + totalDraws c l := by
  simp [totalDraws]

/-- The DELAYs of a wait wait for it and take no draw (R72, R86). -/
theorem total_delays (c : Config) (n : Nat) : totalWait c (delays n) = n ∧ totalDraws c (delays n) = 0 := by
  have hdelay (k : Nat) : itemWait c (uDelay k) = (BitVec.ofNat 24 k).toNat ∧ itemDraws c (uDelay k) = 0 := by
    simp only [itemWait, itemDraws, decodeItem_uDelay, and_self]
  have hwaits : (delays n).map (itemWait c) = (delayArgs n).map BitVec.toNat := by
    simp only [delays, delayArgs, List.map_append, List.map_replicate, List.map_cons, List.map_nil, hdelay]
  refine ⟨by rw [totalWait, hwaits, sum_delayArgs], ?_⟩
  simp only [totalDraws, delays, List.map_append, List.map_replicate, List.map_cons, List.map_nil, hdelay, List.sum_append,
    List.sum_replicate_nat, List.sum_singleton, Nat.mul_zero]

/-- A strobed nibble waits twice and takes three draws (R88, R89). -/
theorem total_seqNibble (c : Config) (n : Nibble) :
    totalWait c (seqNibble c n) = c.tBusSettle + c.tEnHigh ∧ totalDraws c (seqNibble c n) = 3 := by
  simp [seqNibble, seqStrobe, totalWait_cons, totalDraws_cons, total_delays, itemWait, itemDraws]

/-- A transaction takes seven draws (R93, R94). -/
theorem total_seqTransaction (c : Config) (rs : Bool) (b : Byte) (w : Nat) :
    totalWait c (seqTransaction c rs b w) = c.tRsSetup + 2 * (c.tBusSettle + c.tEnHigh) + w ∧
      totalDraws c (seqTransaction c rs b w) = 7 := by
  constructor
  · simp only [seqTransaction, seqFrame, totalWait_append, totalWait_cons, total_delays, total_seqNibble, itemWait,
      decodeItem_uSetRs]
    omega
  · simp [seqTransaction, seqFrame, totalDraws_cons, total_delays, total_seqNibble, itemDraws]

/-! ## Runs that drive the lines -/

/-- A latch event without its constructor: when, and what was sampled, as `latches` lists it. -/
abbrev Sample := Nat × Option Bool × Option Nibble

/-- The event of a sample (R54). -/
def Sample.event (x : Sample) : Event := .latch x.1 x.2.1 x.2.2

/-- The lines can be driven: no mark, a well-formed handle, all six lines outputs. -/
structure State.Driving (s : State) : Prop where
  safe : s.safe
  wf : s.cfg.handle.wf
  driven : s.linesDriven

theorem State.Driving.of_same {s t : State} (hs : s.Driving) (hsafe : t.safe) (hcfg : t.cfg = s.cfg)
    (hddrs : t.ddrs = s.ddrs) : t.Driving := by
  obtain ⟨_, hwf, hdriven⟩ := hs
  refine ⟨hsafe, hcfg ▸ hwf, ?_⟩
  simp only [State.linesDriven, State.dirRs, State.dirE, State.dirD, hcfg, hddrs] at hdriven ⊢
  exact hdriven

/-- `t` comes after `s` by a run of the micro-ops of `l`, with `rest` pending after them: no direction changes, the lines
end at `x`, and the latch events `ls` are added. -/
structure State.DrivesTo (s t : State) (l rest : List Item) (x : Lines) (ls : List Sample) : Prop where
  run : Host.Core.run core l.length s = .next t
  safe : t.safe
  uq : t.uq = rest
  ran : s.Ran t l
  events : s.Extends t
  ddrs : t.ddrs = s.ddrs
  lines : t.lines = x
  latches : latches t.trace = latches s.trace ++ ls

theorem State.DrivesTo.driving {s t : State} {l rest : List Item} {x : Lines} {ls : List Sample}
    (h : s.DrivesTo t l rest x ls) (hs : s.Driving) : t.Driving :=
  hs.of_same h.safe h.ran.cfg h.ddrs

theorem State.DrivesTo.refl {s : State} (hs : s.safe) {rest : List Item} (huq : s.uq = rest) :
    s.DrivesTo s [] rest s.lines [] :=
  ⟨rfl, hs, huq, .refl s, .of_silent rfl (Nat.le_refl _) rfl rfl, rfl, rfl, (List.append_nil _).symm⟩

theorem State.DrivesTo.trans {s t u : State} {l m mid rest : List Item} {x y : Lines} {ls ms : List Sample}
    (h : s.DrivesTo t l mid x ls) (k : t.DrivesTo u m rest y ms) : s.DrivesTo u (l ++ m) rest y (ls ++ ms) where
  run := by rw [List.length_append, run_add h.run, k.run]
  safe := k.safe
  uq := k.uq
  ran := h.ran.trans k.ran
  events := h.events.trans k.events
  ddrs := k.ddrs.trans h.ddrs
  lines := k.lines
  latches := by rw [k.latches, h.latches, List.append_assoc]

/-- The engine's step at a plain micro-op other than CFG_OUT. -/
theorem drive_op {s : State} (hs : s.Driving) {it : Item} {rest : List Item} {j : Instr} (hit : PlainOp it)
    (hj : decodeItem s.cfg it = .ok j) (hne : j ≠ .cfgOut) (huq : s.uq = it :: rest) :
    ∃ t : State, s.DrivesTo t [it] rest (linesAfter s.lines j) (s.latchesOf j) := by
  obtain ⟨w, i, rfl, hi, hplain⟩ := hit
  obtain rfl : i = j := Except.ok.inj (hi.symm.trans hj)
  obtain ⟨u, hu⟩ := exec_next i (s.popItem (.uop w) rest)
  obtain ⟨_, huuq, _, hufault⟩ := exec_plain_keeps hplain hu
  have hran := ran_exec_plain hi hplain hu
  have hstep := step_engine hs.safe huq hj hu
  have hlines : u.finish.lines = u.lines := by rw [State.lines, State.finish_cfg, State.finish_ports, State.lines]
  exact ⟨u.finish, {
    run := run_succ hstep 0
    safe := ⟨u.finish_fault.trans (hufault.trans hs.safe.1), u.finish_refused.trans (hran.refused.trans hs.safe.2)⟩
    uq := u.finish_uq.trans huuq
    ran := hran.finish
    events := step_extends hstep
    ddrs := u.finish_ddrs.trans (exec_plain_ddrs (s := s.popItem (.uop w) rest) hplain hne hu)
    lines := hlines.trans (exec_plain_lines (s := s.popItem (.uop w) rest) hplain hs.wf hu)
    latches := u.finish_latches.trans (exec_latches (s := s.popItem (.uop w) rest) hs.wf hu) }⟩

/-- A micro-op that is no falling edge of E latches nothing (R54). -/
theorem drive_quiet {s : State} (hs : s.Driving) {it : Item} {rest : List Item} {j : Instr} (hit : PlainOp it)
    (hj : decodeItem s.cfg it = .ok j) (hne : j ≠ .cfgOut) (hquiet : j ≠ .setE false) (huq : s.uq = it :: rest) :
    ∃ t : State, s.DrivesTo t [it] rest (linesAfter s.lines j) [] := by
  have hnone : s.latchesOf j = [] := if_neg fun hedge => hquiet hedge.2.2
  exact hnone ▸ drive_op hs hit hj hne huq

/-- SET_E 0 with E high latches the lines as they stand, all of them driven (R54). -/
theorem State.Driving.latchesOf_setE_low {s : State} (hs : s.Driving) (hhigh : s.lines.e = true) :
    s.latchesOf (.setE false) = [(s.t, some s.lines.rs, some s.lines.d)] := by
  obtain ⟨hrs, he, hd⟩ := hs.driven
  rw [State.latchesOf, if_pos ⟨hhigh, he, rfl⟩, State.sampleRs, if_pos hrs, State.sampleD, if_pos hd]
  rfl

/-- DELAYs move no line and latch nothing (R86). -/
theorem drive_uDelays {l : List Item} (hl : ∀ it ∈ l, ∃ n, it = uDelay n) {s : State} (hs : s.Driving) {rest : List Item}
    (huq : s.uq = l ++ rest) : ∃ t : State, s.DrivesTo t l rest s.lines [] := by
  induction l generalizing s with
  | nil => exact ⟨s, .refl hs.safe huq⟩
  | cons it l ih =>
    obtain ⟨⟨n, rfl⟩, hrest⟩ := List.forall_mem_cons.mp hl
    obtain ⟨t, ht⟩ := drive_quiet hs (plainOp_uDelay n) (decodeItem_uDelay s.cfg n) nofun nofun huq
    obtain ⟨u, hu⟩ := ih hrest (ht.driving hs) ht.uq
    rw [ht.lines] at hu
    exact ⟨u, ht.trans hu⟩

/-- A wait moves no line and latches nothing (R86). -/
theorem drive_delays {s : State} (hs : s.Driving) {n : Nat} {rest : List Item} (huq : s.uq = delays n ++ rest) :
    ∃ t : State, s.DrivesTo t (delays n) rest s.lines [] ∧ s.t + n ≤ t.t := by
  have hdelays : ∀ it ∈ delays n, ∃ k, it = uDelay k := by
    simp only [delays, List.forall_mem_append, List.forall_mem_singleton, List.mem_replicate]
    exact ⟨fun _ hit => ⟨_, hit.2⟩, _, rfl⟩
  obtain ⟨t, ht⟩ := drive_uDelays hdelays hs huq
  have hleast := ht.ran.atLeast
  rw [(total_delays s.cfg n).1] at hleast
  exact ⟨t, ht, hleast⟩

/-- A strobed nibble: one latch, of RS as it stands and the nibble, after the two waits; E is left low (R88, R89). -/
theorem drive_seqNibble {s : State} (hs : s.Driving) {c : Config} {n : Nibble} {rest : List Item}
    (huq : s.uq = seqNibble c n ++ rest) :
    ∃ (t : State) (t1 : Nat),
      s.DrivesTo t (seqNibble c n) rest { rs := s.lines.rs, e := false, d := n } [(t1, some s.lines.rs, some n)] ∧
      s.t + c.tBusSettle + c.tEnHigh ≤ t1 ∧ t1 ≤ t.t := by
  have hlist : seqNibble c n =
      [uWriteD n] ++ (delays c.tBusSettle ++ ([uSetE true] ++ (delays c.tEnHigh ++ [uSetE false]))) := by
    simp [seqNibble, seqStrobe]
  rw [hlist] at huq ⊢
  simp only [List.append_assoc] at huq
  obtain ⟨s1, h1⟩ := drive_quiet hs (plainOp_uWriteD n) (decodeItem_uWriteD s.cfg n) nofun nofun huq
  have hs1 := h1.driving hs
  obtain ⟨s2, h2, htime2⟩ := drive_delays hs1 h1.uq
  have hs2 := h2.driving hs1
  obtain ⟨s3, h3⟩ := drive_quiet hs2 (plainOp_uSetE true) (decodeItem_uSetE s2.cfg true) nofun nofun h2.uq
  have hs3 := h3.driving hs2
  obtain ⟨s4, h4, htime4⟩ := drive_delays hs3 h3.uq
  have hs4 := h4.driving hs3
  have hlines : s4.lines = { rs := s.lines.rs, e := true, d := n } := by
    rw [h4.lines, h3.lines, h2.lines, h1.lines]
    rfl
  obtain ⟨s5, h5⟩ := drive_op hs4 (plainOp_uSetE false) (decodeItem_uSetE s4.cfg false) nofun h4.uq
  rw [hs4.latchesOf_setE_low (congrArg Lines.e hlines), hlines] at h5
  have htime1 := h1.events.time
  have htime3 := h3.events.time
  exact ⟨s5, s4.t, h1.trans (h2.trans (h3.trans (h4.trans h5))), by omega, h5.events.time⟩

/-- A transaction: the high nibble is latched, and then the low one, both with its RS, each after its waits (R91, R93,
R94, R98). -/
theorem drive_seqTransaction {s : State} (hs : s.Driving) {c : Config} {rs : Bool} {b : Byte} {w : Nat}
    {rest : List Item} (huq : s.uq = seqTransaction c rs b w ++ rest) :
    ∃ (t : State) (t1 t2 : Nat),
      s.DrivesTo t (seqTransaction c rs b w) rest { rs := rs, e := false, d := loNibble b }
        [(t1, some rs, some (hiNibble b)), (t2, some rs, some (loNibble b))] ∧
      s.t + c.tRsSetup + c.tBusSettle + c.tEnHigh ≤ t1 ∧ t1 + c.tBusSettle + c.tEnHigh ≤ t2 ∧ t2 + w ≤ t.t := by
  have hlist : seqTransaction c rs b w =
      [uSetRs rs] ++ (delays c.tRsSetup ++ (seqNibble c (hiNibble b) ++ (seqNibble c (loNibble b) ++ delays w))) := by
    simp [seqTransaction, seqFrame]
  rw [hlist] at huq ⊢
  simp only [List.append_assoc] at huq
  obtain ⟨s1, h1⟩ := drive_quiet hs (plainOp_uSetRs rs) (decodeItem_uSetRs s.cfg rs) nofun nofun huq
  have hs1 := h1.driving hs
  obtain ⟨s2, h2, htime2⟩ := drive_delays hs1 h1.uq
  have hs2 := h2.driving hs1
  obtain ⟨s3, t1, h3, hleast1, hmost1⟩ := drive_seqNibble hs2 h2.uq
  have hs3 := h3.driving hs2
  obtain ⟨s4, t2, h4, hleast2, hmost2⟩ := drive_seqNibble hs3 h3.uq
  have hs4 := h4.driving hs3
  obtain ⟨s5, h5, htime5⟩ := drive_delays hs4 h4.uq
  have hrs : s2.lines.rs = rs := by
    rw [h2.lines, h1.lines]
    rfl
  rw [hrs] at h3
  rw [h3.lines] at h4
  rw [h4.lines] at h5
  have htime1 := h1.events.time
  exact ⟨s5, t1, t2, h1.trans (h2.trans (h3.trans (h4.trans h5))), by omega, by omega, by omega⟩

/-! ## What the observer takes -/

/-- The observer takes the latch events of a trace and nothing else (R55). -/
theorem Observer.consumeAll_eq_latches (c : Config) (o : Observer) (es : List Event) :
    o.consumeAll c es = o.consumeAll c ((latches es).map Sample.event) := by
  induction es generalizing o with
  | nil => rfl
  | cons e es ih => cases e <;> exact ih _

/-- After a run the observer has taken the latch events that the run has added (R33, R55). -/
theorem State.DrivesTo.obs {s t : State} {l rest : List Item} {x : Lines} {ls : List Sample}
    (h : s.DrivesTo t l rest x ls) : t.obs = s.obs.consumeAll s.cfg (ls.map Sample.event) := by
  obtain ⟨_, _, es, htrace, hobs, _⟩ := h.events
  have hlatches := h.latches
  rw [htrace, latches_append, List.append_cancel_left_eq] at hlatches
  rw [hobs, Observer.consumeAll_eq_latches, hlatches]

/-- Settles O38: the run of the transaction, with its two latches taken by the observer. That E starts low is not used: each
nibble raises E, which latches nothing, before it lowers it. -/
theorem transactionLatchesTwoNibbles : Obligations.TransactionLatchesTwoNibbles := by
  intro s rs b w rest hs hwf huq hdriven _
  obtain ⟨t, t1, t2, h, hfirst, hsecond, htrailing⟩ := drive_seqTransaction ⟨hs, hwf, hdriven⟩ huq
  obtain ⟨hwait, hdraws⟩ := total_seqTransaction s.cfg rs b w
  refine ⟨t, t1, t2, h.run, h.uq, h.safe, h.latches, h.obs, hfirst, hsecond, htrailing, fun d hd => ?_,
    congrArg Lines.rs h.lines, congrArg Lines.e h.lines, h.ddrs, h.ran.cfg⟩
  have hmost := h.ran.atMost d hd
  rw [hwait, hdraws] at hmost
  omega

end Sys2Proof.Machine
end

section
/-! PROOF. Addressing: the address function, the valid positions and the positioned writes, O27 to O29. -/

namespace Sys2Proof.Machine

/-! ## The address function -/

@[simp] theorem ddramCmd_row1 (c : Config) (col : Byte) : ddramCmd c 1 col = some (addressByte c.row1Base col) := rfl

@[simp] theorem ddramCmd_row2 (c : Config) (col : Byte) : ddramCmd c 2 col = some (addressByte c.row2Base col) := rfl

theorem ddramCmd_of_other_row {row : Byte} (h1 : row ≠ 1) (h2 : row ≠ 2) (c : Config) (col : Byte) :
    ddramCmd c row col = none := by
  rw [ddramCmd, if_neg h1, if_neg h2]

/-- A position has an address exactly if its row is 1 or 2 (R101). -/
theorem row_valid_iff_ddramCmd (c : Config) (row col : Byte) :
    (row = 1 ∨ row = 2) ↔ ∃ a, ddramCmd c row col = some a := by
  constructor
  · rintro (rfl | rfl)
    · exact ⟨_, ddramCmd_row1 c col⟩
    · exact ⟨_, ddramCmd_row2 c col⟩
  · rintro ⟨a, ha⟩
    refine Decidable.byContradiction fun hrow => ?_
    obtain ⟨h1, h2⟩ := not_or.mp hrow
    rw [ddramCmd_of_other_row h1 h2] at ha
    cases ha

theorem toNat_addressByte (base col : Byte) :
    ((addressByte base col).toNat : Int) = ((base.toNat : Int) + col.toNat - 1) % 256 := by
  rw [addressByte, BitVec.toNat_ofInt]
  omega

/-- Settles O27: the byte of each row is the sum of R101, and the corner values are computed. -/
theorem addressFunction : Obligations.AddressFunction :=
  ⟨fun c _ col => ⟨addressByte c.row1Base col, addressByte c.row2Base col, toNat_addressByte _ _,
    toNat_addressByte _ _, rfl⟩, by decide⟩

/-! ## The valid positions at the defaults -/

theorem validPosition_iff (c : Config) (row col : Byte) :
    validPosition c row col = true ↔ (row = 1 ∨ row = 2) ∧ 1 ≤ col.toNat ∧ col.toNat ≤ c.displayCols := by
  simp [validPosition, and_assoc]

/-- The addresses of the valid positions of row 1 are 0x80 to 0x8F, those of row 2 are 0xC0 to 0xCF, each in the order of
its columns (R106). -/
theorem validPosition_with_address_iff (row col a : Byte) :
    (validPosition Config.default row col = true ∧ ddramCmd Config.default row col = some a) ↔
      (row = 1 ∧ a.toNat = 0x7F + col.toNat ∧ 0x80 ≤ a.toNat ∧ a.toNat ≤ 0x8F) ∨
      (row = 2 ∧ a.toNat = 0xBF + col.toNat ∧ 0xC0 ≤ a.toNat ∧ a.toNat ≤ 0xCF) := by
  have hcols : Config.default.displayCols = 16 := rfl
  have haddr (base : Byte) : some (addressByte base col) = some a ↔
      (a.toNat : Int) = ((base.toNat : Int) + col.toNat - 1) % 256 := by
    rw [← toNat_addressByte, Option.some_inj, ← BitVec.toNat_inj, Int.natCast_inj, eq_comm]
  have hbase1 : Config.default.row1Base.toNat = 0x80 := rfl
  have hbase2 : Config.default.row2Base.toNat = 0xC0 := rfl
  rw [validPosition_iff, hcols]
  by_cases h1 : row = 1
  · subst h1
    rw [ddramCmd_row1, haddr, hbase1]
    simp only [true_and, show ¬ (1 : Byte) = 2 by decide, false_and, or_false]
    omega
  · by_cases h2 : row = 2
    · subst h2
      rw [ddramCmd_row2, haddr, hbase2]
      simp only [or_true, true_and, h1, false_and, false_or]
      omega
    · simp only [h1, h2, or_self, false_and]

/-- Settles O28: the address ranges of the two rows are disjoint, and within a row the address gives the column. -/
theorem validPositionsHaveDistinctAddresses : Obligations.ValidPositionsHaveDistinctAddresses := by
  constructor
  · intro row col row' col' hvalid hvalid' hsame
    obtain ⟨a, ha⟩ := (row_valid_iff_ddramCmd _ row col).mp ((validPosition_iff _ row col).mp hvalid).1
    have hpos := (validPosition_with_address_iff row col a).mp ⟨hvalid, ha⟩
    have hpos' := (validPosition_with_address_iff row' col' a).mp ⟨hvalid', hsame ▸ ha⟩
    rcases hpos with ⟨rfl, haddr⟩ | ⟨rfl, haddr⟩
    · rcases hpos' with ⟨rfl, haddr'⟩ | ⟨rfl, haddr'⟩
      · exact ⟨rfl, BitVec.eq_of_toNat_eq (by omega)⟩
      · omega
    · rcases hpos' with ⟨rfl, haddr'⟩ | ⟨rfl, haddr'⟩
      · omega
      · exact ⟨rfl, BitVec.eq_of_toNat_eq (by omega)⟩
  · intro a
    simp only [validPosition_with_address_iff]
    constructor
    · rintro (hrange | hrange)
      · exact ⟨1, BitVec.ofNat 8 (a.toNat - 0x7F), .inl ⟨rfl, by rw [BitVec.toNat_ofNat]; omega, hrange⟩⟩
      · exact ⟨2, BitVec.ofNat 8 (a.toNat - 0xBF), .inr ⟨rfl, by rw [BitVec.toNat_ofNat]; omega, hrange⟩⟩
    · rintro ⟨row, col, ⟨_, _, hrange⟩ | ⟨_, _, hrange⟩⟩
      · exact .inl hrange
      · exact .inr hrange

/-! ## Positioned writes -/

theorem seqSetCursor_of_address {c : Config} {row col a : Byte} (h : ddramCmd c row col = some a) :
    seqSetCursor c row col = seqCmd c a := by
  rw [seqSetCursor, h]

theorem seqSetCursor_of_other_row {row : Byte} (h1 : row ≠ 1) (h2 : row ≠ 2) (c : Config) (col : Byte) :
    seqSetCursor c row col = [] := by
  rw [seqSetCursor, ddramCmd_of_other_row h1 h2]

/-- A position that has an address: the address command precedes the body (R103). -/
theorem seqAt_of_address {c : Config} {row col a : Byte} (h : ddramCmd c row col = some a) (body : List Item) :
    seqAt c row col body = seqCmd c a ++ body := by
  have hsent : row = 1 ∨ row = 2 ∨ c.invalidRowSendsData = true :=
    or_assoc.mp (.inl ((row_valid_iff_ddramCmd c row col).mpr ⟨a, h⟩))
  rw [seqAt, if_pos hsent, seqSetCursor_of_address h]

/-- A row outside 1 and 2 whose body is sent issues the body alone (R103). -/
theorem seqAt_of_sent {c : Config} {row : Byte} (hsends : c.invalidRowSendsData = true) (h1 : row ≠ 1) (h2 : row ≠ 2)
    (col : Byte) (body : List Item) : seqAt c row col body = body := by
  rw [seqAt, if_pos (.inr (.inr hsends)), seqSetCursor_of_other_row h1 h2, List.nil_append]

theorem length_seqCmd_fit {c : Config} (hc : c.fits) (b : Byte) : (seqCmd c b).length = 13 :=
  length_eq_of_readsAs (readsAs_seqCmd_fit hc b)

theorem length_seqChar_fit {c : Config} (hc : c.fits) (b : Byte) : (seqChar c b).length = 13 :=
  length_eq_of_readsAs (readsAs_seqChar_fit hc b)

/-- Settles O29: `seqAt` in the three cases of R103, with thirteen micro-ops for the command and for the character. -/
theorem positionedWrites : Obligations.PositionedWrites := by
  intro c b row col s
  refine ⟨fun a ha => ?_, fun h1 h2 hsends => ?_, fun h1 h2 hsends => ?_, row_valid_iff_ddramCmd c row col⟩
  · have hat := seqAt_of_address ha
    refine ⟨hat _, hat _, fun hfits => ?_⟩
    rw [expand, hat, List.length_append, length_seqCmd_fit hfits, length_seqChar_fit hfits]
  · have hat := seqAt_of_sent hsends h1 h2 col
    refine ⟨hat _, hat _, fun hfits => ?_⟩
    rw [expand, hat, length_seqChar_fit hfits]
  · have hat (body : List Item) : seqAt c row col body = [] :=
      (seqAt_of_not_sent hsends h1 h2 col body).trans (seqSetCursor_of_other_row h1 h2 c col)
    exact ⟨hat _, hat _⟩

end Sys2Proof.Machine
end

section
/-! PROOF. The expansion of LCD_INIT at waits that fit: O34 and O35. -/

namespace Sys2Proof.Machine

/-- LCD_INIT at waits that fit: each wait is one DELAY (R109). -/
theorem readsAs_seqInit_fit {c : Config} (hc : c.fits) :
    readsAs c (seqInit c)
      ([.cfgOut, .setRs false, .setE false, us c.tPower] ++ nibbleOps c c.nibReset ++ [us c.tReset1] ++
        nibbleOps c c.nibReset ++ [us c.tReset2] ++ nibbleOps c c.nibReset ++ [us c.tReset3] ++ nibbleOps c c.nib4Bit ++
        commandOps c c.cmdFuncset ++ commandOps c c.cmdClear ++ commandOps c c.initDispctrl ++
        commandOps c c.initEntry ++ [us c.tFinal]) := by
  have ⟨_, _, _, _, _, _, hpower, hreset1, hreset2, hreset3, hfinal⟩ := hc
  have h := readsAs_seqInit c
  rwa [delayOps_fit hpower, delayOps_fit hreset1, delayOps_fit hreset2, delayOps_fit hreset3, delayOps_fit hfinal,
    nibbleWith_fit hc, nibbleWith_fit hc, commandWith_fit hc, commandWith_fit hc, commandWith_fit hc,
    commandWith_fit hc] at h

theorem length_seqInit_fit {c : Config} (hc : c.fits) : (seqInit c).length = 80 :=
  length_eq_of_readsAs (readsAs_seqInit_fit hc)

/-- Settles O34: the expansion at any waits (O33), with each wait one DELAY. -/
theorem initExpansionHasEightyMicroOps : Obligations.InitExpansionHasEightyMicroOps :=
  fun _ hfits => ⟨readsAs_seqInit_fit hfits, length_seqInit_fit hfits⟩

theorem length_delays_fit {n : Nat} (h : n ≤ delayMax) : (delays n).length = 1 := by
  rw [delays_fit h]
  rfl

theorem length_seqNibble_fit {c : Config} (hc : c.fits) (n : Nibble) : (seqNibble c n).length = 5 :=
  length_eq_of_readsAs (nibbleWith_fit hc n ▸ readsAs_seqNibble c n)

/-- A segment holds the indexes up to its length; those past it belong to the segments after it (R107). -/
theorem segmentAt_cons (st : InitState) (ops : List Item) (l : List (InitState × List Item)) (n : Nat) :
    segmentAt ((st, ops) :: l) n = if n < ops.length then st else segmentAt l (n - ops.length) := rfl

/-- The ranges of R107, from the lengths of the segments. -/
theorem initStateAt_fit {c : Config} (hc : c.fits) (n : Nat) :
    initStateAt c n =
      if n ≤ 3 then .powerSettle else if n ≤ 9 then .reset1 else if n ≤ 15 then .reset2 else if n ≤ 21 then .reset3
      else if n ≤ 26 then .mode4Bit else if n ≤ 39 then .functionSet else if n ≤ 52 then .displayClear
      else if n ≤ 65 then .cursorMode else if n ≤ 78 then .entryMode else if n ≤ 79 then .finalSettle else .ready := by
  have ⟨_, _, _, _, _, _, hpower, hreset1, hreset2, hreset3, hfinal⟩ := hc
  simp only [initStateAt, initSegments, segmentAt_cons, List.length_append, List.length_cons, List.length_nil,
    length_delays_fit hpower, length_delays_fit hreset1, length_delays_fit hreset2, length_delays_fit hreset3,
    length_delays_fit hfinal, length_seqNibble_fit hc, length_seqCmd_fit hc, Nat.reduceAdd,
    Nat.sub_sub, Nat.lt_succ_iff, Nat.sub_le_iff_le_add]
  rfl

/-- Settles O35: the ranges are the segments one after the other, and `initState` asks for the current index. -/
theorem initStatesFollowTheIndex : Obligations.InitStatesFollowTheIndex :=
  ⟨fun _ n hfits => initStateAt_fit hfits n, fun _ hcur => if_pos hcur⟩

end Sys2Proof.Machine
end

section
/-! PROOF. The run of LCD_INIT, O40: its latches stand on the beats of its waits, each no earlier than the waits before it
allow, and with no draws none is later. -/

namespace Sys2Proof.Machine

/-! ## Beats -/

/-- What a list of micro-ops that keeps RS low does in time: it waits, and it latches nibbles. -/
inductive Beat where
  | wait (n : Nat)
  | nibble (n : Nibble)

/-- From `t` to `t'` the samples `ls`, all with RS low, are the nibbles of the beats, none earlier than the waits allow. -/
def Paced (t : Nat) (beats : List Beat) (ls : List Sample) (t' : Nat) : Prop :=
  match beats with
  | [] => ls = [] ∧ t ≤ t'
  | .wait n :: beats => Paced (t + n) beats ls t'
  | .nibble n :: beats => ∃ x ms, ls = (x, some false, some n) :: ms ∧ t ≤ x ∧ Paced x beats ms t'

/-- The waits of a list of beats. -/
def span (beats : List Beat) : Nat :=
  match beats with
  | [] => 0
  | .wait n :: beats => n + span beats
  | .nibble _ :: beats => span beats

/-- The samples from `t` on with nothing later than the waits ask for. -/
def onTime (t : Nat) (beats : List Beat) : List Sample :=
  match beats with
  | [] => []
  | .wait n :: beats => onTime (t + n) beats
  | .nibble n :: beats => (t, some false, some n) :: onTime t beats

theorem Paced.of_later {t u t' : Nat} {beats : List Beat} {ls : List Sample} (htu : t ≤ u) (h : Paced u beats ls t') :
    Paced t beats ls t' := by
  induction beats generalizing t u with
  | nil => exact ⟨h.1, Nat.le_trans htu h.2⟩
  | cons beat beats ih =>
    cases beat with
    | wait n => exact ih (Nat.add_le_add_right htu n) h
    | nibble n =>
      obtain ⟨x, ms, hls, hux, hms⟩ := h
      exact ⟨x, ms, hls, Nat.le_trans htu hux, hms⟩

theorem paced_append {t t' : Nat} {beats more : List Beat} {ls : List Sample} :
    Paced t (beats ++ more) ls t' ↔ ∃ u ms ns, ls = ms ++ ns ∧ Paced t beats ms u ∧ Paced u more ns t' := by
  induction beats generalizing t ls with
  | nil =>
    constructor
    · exact fun h => ⟨t, [], ls, rfl, ⟨rfl, Nat.le_refl t⟩, h⟩
    · rintro ⟨u, _, ns, rfl, ⟨rfl, htu⟩, h⟩
      exact h.of_later htu
  | cons beat beats ih =>
    cases beat with
    | wait n => exact ih
    | nibble n =>
      constructor
      · rintro ⟨x, ks, rfl, htx, hks⟩
        obtain ⟨u, ms, ns, rfl, hms, hns⟩ := ih.mp hks
        exact ⟨u, (x, some false, some n) :: ms, ns, rfl, ⟨x, ms, rfl, htx, hms⟩, hns⟩
      · rintro ⟨u, _, ns, rfl, ⟨x, ms, rfl, htx, hms⟩, hns⟩
        exact ⟨x, ms ++ ns, rfl, htx, ih.mpr ⟨u, ms, ns, rfl, hms, hns⟩⟩

theorem Paced.span_le {t t' : Nat} {beats : List Beat} {ls : List Sample} (h : Paced t beats ls t') :
    t + span beats ≤ t' := by
  induction beats generalizing t ls with
  | nil => exact h.2
  | cons beat beats ih =>
    cases beat with
    | wait n => exact Nat.add_assoc t n _ ▸ ih h
    | nibble n =>
      obtain ⟨x, ms, _, htx, hms⟩ := h
      exact Nat.le_trans (Nat.add_le_add_right htx _) (ih hms)

/-- Samples that leave no time beyond the waits are all on time. -/
theorem Paced.eq_onTime {t t' : Nat} {beats : List Beat} {ls : List Sample} (h : Paced t beats ls t')
    (htight : t' ≤ t + span beats) : ls = onTime t beats := by
  induction beats generalizing t ls with
  | nil => exact h.1
  | cons beat beats ih =>
    cases beat with
    | wait n => exact ih h (Nat.add_assoc t n _ ▸ htight)
    | nibble n =>
      obtain ⟨x, ms, rfl, htx, hms⟩ := h
      obtain rfl : x = t := Nat.le_antisymm (Nat.le_of_add_le_add_right (Nat.le_trans hms.span_le htight)) htx
      rw [onTime, ih hms htight]

/-! ## The beats of LCD_INIT -/

/-- A strobed nibble (R88, R89). -/
def nibbleBeats (c : Config) (n : Nibble) : List Beat := [.wait c.tBusSettle, .wait c.tEnHigh, .nibble n]

/-- A command (R93). -/
def commandBeats (c : Config) (b : Byte) : List Beat :=
  [.wait c.tRsSetup] ++ nibbleBeats c (hiNibble b) ++ nibbleBeats c (loNibble b) ++ [.wait (commandWait c b)]

/-- The power wait, the three blind resets and the switch to 4 bits (R109 to R112). -/
def resetBeats (c : Config) : List Beat :=
  [.wait c.tPower] ++ (nibbleBeats c c.nibReset ++ [.wait c.tReset1]) ++
    (nibbleBeats c c.nibReset ++ [.wait c.tReset2]) ++ (nibbleBeats c c.nibReset ++ [.wait c.tReset3]) ++
    nibbleBeats c c.nib4Bit

/-- The four commands and the final wait (R113 to R117). -/
def setupBeats (c : Config) : List Beat :=
  commandBeats c c.cmdFuncset ++ commandBeats c c.cmdClear ++ commandBeats c c.initDispctrl ++
    commandBeats c c.initEntry ++ [.wait c.tFinal]

/-- LCD_INIT from the power wait on (R109). -/
def initBeats (c : Config) : List Beat := resetBeats c ++ setupBeats c

/-- The micro-ops of `resetBeats`. -/
def resetOps (c : Config) : List Item :=
  delays c.tPower ++ (seqNibble c c.nibReset ++ delays c.tReset1) ++ (seqNibble c c.nibReset ++ delays c.tReset2) ++
    (seqNibble c c.nibReset ++ delays c.tReset3) ++ seqNibble c c.nib4Bit

/-- The micro-ops of `setupBeats`. -/
def setupOps (c : Config) : List Item :=
  seqCmd c c.cmdFuncset ++ seqCmd c c.cmdClear ++ seqCmd c c.initDispctrl ++ seqCmd c c.initEntry ++ delays c.tFinal

theorem seqInit_eq (c : Config) :
    seqInit c = [uCfgOut, uSetRs false, uSetE false] ++ (resetOps c ++ setupOps c) := by
  simp [seqInit, initSegments, resetOps, setupOps]

theorem span_append (beats more : List Beat) : span (beats ++ more) = span beats + span more := by
  induction beats with
  | nil => exact (Nat.zero_add _).symm
  | cons beat beats ih =>
    cases beat with
    | wait n => rw [List.cons_append, span, ih, span, Nat.add_assoc]
    | nibble n => exact ih

theorem totalWait_delays (c : Config) (n : Nat) : totalWait c (delays n) = span [.wait n] := (total_delays c n).1

theorem totalWait_seqNibble (c : Config) (n : Nibble) : totalWait c (seqNibble c n) = span (nibbleBeats c n) :=
  (total_seqNibble c n).1

theorem totalWait_seqCmd (c : Config) (b : Byte) : totalWait c (seqCmd c b) = span (commandBeats c b) := by
  have htotal := (total_seqTransaction c false b (commandWait c b)).1
  simp only [commandBeats, nibbleBeats, List.cons_append, List.nil_append, span]
  rw [seqCmd, htotal]
  omega

/-- The waits of LCD_INIT are those of its beats. -/
theorem totalWait_seqInit (c : Config) : totalWait c (seqInit c) = span (initBeats c) := by
  have hprelude : totalWait c [uCfgOut, uSetRs false, uSetE false] = 0 := by
    simp [totalWait, itemWait]
  simp only [seqInit_eq, resetOps, setupOps, initBeats, resetBeats, setupBeats, totalWait_append, span_append, hprelude,
    totalWait_delays, totalWait_seqNibble, totalWait_seqCmd, Nat.zero_add]

/-! ## Micro-ops on their beats -/

/-- The lines can be driven, with RS and E low. -/
abbrev State.parked (s : State) : Prop := s.Driving ∧ s.lines.rs = false ∧ s.lines.e = false

/-- From every parked state the micro-ops run to a parked state and latch on the beats. -/
def Plays (l : List Item) (beats : List Beat) : Prop :=
  ∀ (s : State) (rest : List Item), s.parked → s.uq = l ++ rest →
    ∃ t ls, s.DrivesTo t l rest t.lines ls ∧ t.parked ∧ Paced s.t beats ls t.t

theorem Plays.append {l m : List Item} {beats more : List Beat} (hl : Plays l beats) (hm : Plays m more) :
    Plays (l ++ m) (beats ++ more) := by
  intro s rest hs huq
  rw [List.append_assoc] at huq
  obtain ⟨t, ls, ht, htparked, htpaced⟩ := hl s (m ++ rest) hs huq
  obtain ⟨u, ms, hu, huparked, hupaced⟩ := hm t rest htparked ht.uq
  exact ⟨u, ls ++ ms, ht.trans hu, huparked, paced_append.mpr ⟨t.t, ls, ms, rfl, htpaced, hupaced⟩⟩

theorem plays_delays (n : Nat) : Plays (delays n) [.wait n] := by
  rintro s rest ⟨hs, hlow⟩ huq
  obtain ⟨t, ht, htime⟩ := drive_delays hs huq
  exact ⟨t, [], ht.lines ▸ ht, ⟨ht.driving hs, ht.lines ▸ hlow⟩, rfl, htime⟩

theorem plays_seqNibble (c : Config) (n : Nibble) : Plays (seqNibble c n) (nibbleBeats c n) := by
  rintro s rest ⟨hs, hrs, _⟩ huq
  obtain ⟨t, x, ht, hleast, hmost⟩ := drive_seqNibble hs huq
  rw [hrs] at ht
  have hlines := ht.lines
  exact ⟨t, _, hlines ▸ ht, ⟨ht.driving hs, congrArg Lines.rs hlines, congrArg Lines.e hlines⟩, x, [], rfl, hleast, rfl,
    hmost⟩

theorem plays_seqCmd (c : Config) (b : Byte) : Plays (seqCmd c b) (commandBeats c b) := by
  rintro s rest ⟨hs, _⟩ huq
  obtain ⟨t, x, y, ht, hfirst, hsecond, htrailing⟩ := drive_seqTransaction hs huq
  have hlines := ht.lines
  exact ⟨t, _, hlines ▸ ht, ⟨ht.driving hs, congrArg Lines.rs hlines, congrArg Lines.e hlines⟩, x, _, rfl, hfirst, y, [],
    rfl, hsecond, rfl, htrailing⟩

theorem plays_resetOps (c : Config) : Plays (resetOps c) (resetBeats c) :=
  have hreset (w : Nat) : Plays (seqNibble c c.nibReset ++ delays w) (nibbleBeats c c.nibReset ++ [.wait w]) :=
    (plays_seqNibble c c.nibReset).append (plays_delays w)
  ((((plays_delays _).append (hreset _)).append (hreset _)).append (hreset _)).append (plays_seqNibble c _)

theorem plays_setupOps (c : Config) : Plays (setupOps c) (setupBeats c) :=
  ((((plays_seqCmd c _).append (plays_seqCmd c _)).append (plays_seqCmd c _)).append (plays_seqCmd c _)).append
    (plays_delays _)

/-! ## The run -/

/-- A run extends the state it starts in. -/
theorem run_extends {k : Nat} {s t : State} (h : Host.Core.run core k s = .next t) : s.Extends t := by
  induction k generalizing s with
  | zero =>
    cases h
    exact .of_silent rfl (Nat.le_refl _) rfl rfl
  | succ k ih =>
    cases hu : step s with
    | next u => exact (step_extends hu).trans (ih ((run_succ hu k).symm.trans h))
    | fault r | refused r => simp [Host.Core.run, core, hu] at h

/-- The observer takes the latch events that a state adds to another (R33, R55). -/
theorem State.Extends.obs_of_latches {s t : State} (h : s.Extends t) {ls : List Sample}
    (hls : latches t.trace = latches s.trace ++ ls) : t.obs = s.obs.consumeAll s.cfg (ls.map Sample.event) := by
  obtain ⟨_, _, es, htrace, hobs, _⟩ := h
  rw [htrace, latches_append, List.append_cancel_left_eq] at hls
  rw [hobs, Observer.consumeAll_eq_latches, hls]

/-- A run of plain micro-ops counts no LCD_INIT (R31). -/
theorem run_plainOps_initCount {l : List Item} (hl : PlainOps l) {s t : State} (hs : s.safe) (huq : s.uq = l)
    (h : Host.Core.run core l.length s = .next t) : t.initCount = s.initCount := by
  induction l generalizing s with
  | nil =>
    cases h
    rfl
  | cons it l ih =>
    obtain ⟨⟨w, j, rfl, hj, hplain⟩, hrest⟩ := plainOps_cons.mp hl
    obtain ⟨u, hu⟩ := exec_next j (s.popItem (.uop w) l)
    obtain ⟨_, _, huuq, _, hfault, hrefused, hcount, _⟩ := exec_plain_sequencerSame hplain hu
    rw [List.length_cons, run_succ (step_engine hs huq hj hu)] at h
    have hsafe : u.finish.safe :=
      ⟨u.finish_fault.trans (hfault.trans hs.1), u.finish_refused.trans (hrefused.trans hs.2)⟩
    exact (ih hrest hsafe (u.finish_uq.trans huuq) h).trans (u.finish_initCount.trans hcount)

/-- CFG_OUT leaves the lines ready to be driven and as they were, and latches nothing (R82). -/
theorem step_cfgOut {s : State} (hs : s.safe) (hwf : s.cfg.handle.wf) {rest : List Item} (hne : rest ≠ [])
    (huq : s.uq = uCfgOut :: rest) :
    ∃ t, step s = .next t ∧ t.Driving ∧ t.uq = rest ∧ t.lines = s.lines ∧ latches t.trace = latches s.trace := by
  have hstep := step_engine hs huq (decodeItem_uCfgOut s.cfg) (exec_cfgOut _)
  rw [State.finish_of_pending (by exact hne)] at hstep
  refine ⟨_, hstep, ⟨hs, hwf, linesDriven_of_outputPins rfl⟩, rfl, rfl, ?_⟩
  exact exec_latches_of_ne (i := .cfgOut) (s := s.popItem uCfgOut rest) nofun (exec_cfgOut _)

/-- The start of LCD_INIT parks the lines; it latches only if E was high (R110). -/
theorem run_initStart {s : State} (hs : s.safe) (hwf : s.cfg.handle.wf) {rest : List Item}
    (huq : s.uq = [uCfgOut, uSetRs false, uSetE false] ++ rest) :
    ∃ t ls, Host.Core.run core 3 s = .next t ∧ t.parked ∧ t.uq = rest ∧ latches t.trace = latches s.trace ++ ls ∧
      (s.outE = false → ls = []) := by
  obtain ⟨s1, hstep, hs1, huq1, hlines1, hlatches1⟩ := step_cfgOut hs hwf (List.cons_ne_nil _ _) huq
  obtain ⟨s2, h2⟩ := drive_quiet hs1 (plainOp_uSetRs false) (decodeItem_uSetRs s1.cfg false) nofun nofun huq1
  have hs2 := h2.driving hs1
  obtain ⟨s3, h3⟩ := drive_op hs2 (plainOp_uSetE false) (decodeItem_uSetE s2.cfg false) nofun h2.uq
  have hlines3 : s3.lines = { rs := false, e := false, d := s.lines.d } := by
    rw [h3.lines, h2.lines, hlines1]
    rfl
  refine ⟨s3, s2.latchesOf (.setE false), ?_, ⟨h3.driving hs2, congrArg Lines.rs hlines3, congrArg Lines.e hlines3⟩,
    h3.uq, ?_, fun hlow => if_neg fun hedge => ?_⟩
  · exact (run_succ hstep 2).trans ((run_add h2.run 1).trans h3.run)
  · rw [h3.latches, h2.latches, List.append_nil, hlatches1]
  · have hsame : s2.outE = s.outE := congrArg Lines.e (h2.lines.trans (congrArg (linesAfter · (.setRs false)) hlines1))
    rw [hsame, hlow] at hedge
    exact Bool.false_ne_true hedge.1

/-- LCD_INIT as accepted (R34, R108). -/
def State.acceptInit (s : State) (q : HostReq) (qs : List HostReq) : State :=
  ((s.hostArrive q qs).countInit .lcdInit).begin .lcdInit (seqInit s.cfg)

theorem decodeReq_lcdInit {r : Req} (hop : reqOp r.word = 0x0) : decodeReq r = .ok .lcdInit := by
  simp [decodeReq, hop]

theorem step_acceptInit {s : State} {q : HostReq} {qs : List HostReq} (hs : s.safe) (hidle : s.idle)
    (hq : s.hostq = q :: qs) (hop : reqOp q.word = 0x0) : step s = .next (s.acceptInit q qs) := by
  rw [step_host hs hidle hq (decodeReq_lcdInit hop), exec_request rfl, State.accept, State.finish_of_pending]
  · rfl
  · exact List.cons_ne_nil uCfgOut _

/-- The run of LCD_INIT at waits that fit: where it leaves the lines, and its latches, on its beats. Before them there is
one more if E was high. -/
theorem run_lcdInit {s : State} {q : HostReq} {qs : List HostReq} (hs : s.safe) (hidle : s.idle)
    (hq : s.hostq = q :: qs) (hop : reqOp q.word = 0x0) (hfits : s.cfg.fits) (hwf : s.cfg.handle.wf) :
    ∃ t ls ms, Host.Core.run core 81 s = .next t ∧ t.parked ∧ latches t.trace = latches s.trace ++ (ls ++ ms) ∧
      (s.outE = false → ls = []) ∧ Paced (s.t + q.think) (initBeats s.cfg) ms t.t := by
  have hbegin : latches (s.acceptInit q qs).trace = latches s.trace :=
    (latches_append ..).trans (List.append_nil _)
  obtain ⟨u, ls, hstart, huparked, huuq, hulatches, hulow⟩ :=
    run_initStart (s := s.acceptInit q qs) hs hwf (seqInit_eq s.cfg)
  have huq : u.uq = resetOps s.cfg ++ setupOps s.cfg ++ [] := huuq.trans (List.append_nil _).symm
  obtain ⟨t, ms, ht, htparked, hpaced⟩ := (plays_resetOps s.cfg).append (plays_setupOps s.cfg) u [] huparked huq
  have hlength : (resetOps s.cfg ++ setupOps s.cfg).length = 77 := by
    have h := length_seqInit_fit hfits
    rw [seqInit_eq, List.length_append] at h
    exact Nat.add_left_cancel (n := 3) h
  have hrun := ht.run
  rw [hlength] at hrun
  refine ⟨t, ls, ms, ?_, htparked, ?_, hulow, hpaced.of_later (run_extends hstart).time⟩
  · exact (run_succ (step_acceptInit hs hidle hq hop) 80).trans ((run_add hstart 77).trans hrun)
  · rw [ht.latches, hulatches, hbegin, List.append_assoc]

/-- The run of LCD_INIT at waits that fit: it ends, and is counted (R31, R108). -/
theorem run_lcdInit_ends {s t : State} {q : HostReq} {qs : List HostReq} (hs : s.safe) (hidle : s.idle)
    (hq : s.hostq = q :: qs) (hop : reqOp q.word = 0x0) (hfits : s.cfg.fits)
    (hrun : Host.Core.run core 81 s = .next t) :
    t.idle ∧ t.safe ∧ t.initCount = s.initCount + 1 ∧
      (s.cfg.deltaMax = some 0 → t.t = s.t + q.think + span (initBeats s.cfg)) := by
  obtain ⟨u, es, hends, huq, hrefused, _, _, hleft, hleast, hmost⟩ :=
    requestRunsToItsEndOrFault s q qs .lcdInit hs hidle hq (decodeReq_lcdInit hop)
  rw [expand, totalWait_seqInit] at hleast hmost
  rw [expand, length_seqInit_fit hfits, hrun] at hends
  cases hends
  obtain ⟨hfault, hcur, _⟩ : t.fault = none ∧ t.cur = none ∧ _ := hleft
  refine ⟨⟨huq, hcur⟩, ⟨hfault, hrefused⟩, ?_, fun hnodraw => ?_⟩
  · rw [run_succ (step_acceptInit hs hidle hq hop), ← length_seqInit_fit hfits] at hrun
    exact run_plainOps_initCount (plainOps_seqInit s.cfg) (s := s.acceptInit q qs) hs rfl hrun
  · have hlast := hmost 0 hnodraw
    omega

/-! ## At the default waits -/

theorem Config.fits_of_atDefaults {c : Config} (hc : c.atDefaults) : c.fits :=
  (congrArg Config.fits hc).mpr (by decide : Config.default.fits)

theorem initBeats_of_atDefaults {c : Config} (hc : c.atDefaults) : initBeats c = initBeats Config.default :=
  (congrArg initBeats hc).trans rfl

/-- Settles O40: with no draws the run takes its waits and nothing more, and so each latch is on time. -/
theorem initTimeline : Obligations.InitTimeline := by
  intro s q qs hs hidle hq hop hdefaults hwf hnodraw hlow
  have hfits := Config.fits_of_atDefaults hdefaults
  obtain ⟨t, ls, ms, hrun, _, hlatches, hnone, hpaced⟩ := run_lcdInit hs hidle hq hop hfits hwf
  obtain ⟨htidle, htsafe, _, htime⟩ := run_lcdInit_ends hs hidle hq hop hfits hrun
  rw [hnone hlow, hpaced.eq_onTime (Nat.le_of_eq (htime hnodraw)), initBeats_of_atDefaults hdefaults] at hlatches
  rw [initBeats_of_atDefaults hdefaults] at htime
  exact ⟨t, hrun, htidle, htsafe, htime hnodraw, hlatches⟩

end Sys2Proof.Machine
end

section
/-! PROOF. The observer under LCD_INIT, O41: whatever it holds, three blind resets bring it to 8-bit mode, the switch brings
it to 4-bit mode, and the four commands make it ready. -/

namespace Sys2Proof.Machine

/-! ## Samples at the observer -/

/-- The observer after the latch events of samples (R55). -/
def Observer.takes (c : Config) (o : Observer) (ls : List Sample) : Observer := o.consumeAll c (ls.map Sample.event)

theorem Observer.takes_append (c : Config) (o : Observer) (ls ms : List Sample) :
    o.takes c (ls ++ ms) = (o.takes c ls).takes c ms := by
  rw [Observer.takes, List.map_append, Observer.consumeAll, List.foldl_append]
  rfl

/-! ## The blind resets -/

/-- In 8-bit mode since a pulse at `x`. -/
def Observer.atM8 (c : Config) (o : Observer) (x : Nat) : Prop := o.mode = .m8 ∧ o.busyUntil ≤ x + c.obsExecShort

/-- In 8-bit mode, or one pulse before it: two pulses counted, or the high nibble of 0x33 latched. -/
def Observer.nearM8 (c : Config) (o : Observer) (x : Nat) : Prop :=
  o.atM8 c x ∨ (o.mode = .unknown ∧ o.k = 2 ∧ o.tk = some x) ∨ (o.mode = .m4l false 0x3 ∧ o.busyUntil ≤ x)

/-- At most two pulses before 8-bit mode: one pulse counted, or 4-bit mode between bytes. -/
def Observer.towardsM8 (c : Config) (o : Observer) (x : Nat) : Prop :=
  o.nearM8 c x ∨ (o.mode = .unknown ∧ o.k = 1 ∧ o.tk = some x) ∨
    (o.mode = .m4h ∧ o.busyUntil ≤ x + max c.obsExecShort c.obsExecLong)

/-- A blind-reset pulse counts (R59). -/
theorem Observer.blindPulse_towardsM8 {c : Config} {o : Observer} {x : Nat} (hmode : o.mode = .unknown)
    (hx : c.obsPowerMin ≤ x) : (o.blindPulse c x).towardsM8 c x := by
  simp only [Observer.blindPulse, if_pos hx]
  split
  · exact .inr (.inl ⟨hmode, rfl, rfl⟩)
  · split
    · exact .inl (.inr (.inl ⟨hmode, rfl, rfl⟩))
    · split
      · exact .inl (.inl ⟨rfl, Nat.le_refl _⟩)
      · exact .inr (.inl ⟨hmode, rfl, rfl⟩)

theorem Observer.latchUnknown_pulse {c : Config} (hn : c.nibReset = 0x3) (o : Observer) (x : Nat) :
    o.latchUnknown c x false 0x3 = o.blindPulse c x := if_pos ⟨rfl, hn.symm⟩

theorem Observer.latchM8_pulse (c : Config) (o : Observer) (x : Nat) (hmode : o.mode = .m8) :
    (o.latchM8 c x false 0x3).atM8 c x := ⟨hmode, Nat.le_refl _⟩

/-- A byte that R62 defines keeps mode M4H, or enters M8 if it is a function set with bit 4 (R62). -/
theorem Observer.execInstruction_towardsM8 {c : Config} {o : Observer} {b : Byte} {x : Nat} (hmode : o.mode = .m4h)
    (hb : ctlClass b ≠ .undefinedByte) : (o.execInstruction c b x).towardsM8 c x := by
  have hshort : x + c.obsExecShort ≤ x + max c.obsExecShort c.obsExecLong := by omega
  have hlong : x + c.obsExecLong ≤ x + max c.obsExecShort c.obsExecLong := by omega
  unfold Observer.execInstruction
  cases hclass : ctlClass b with
  | undefinedByte => exact absurd hclass hb
  | clearDisplay | returnHome => exact .inr (.inr ⟨hmode, hlong⟩)
  | entryModeSet | displayControl | setCgram | setDdram => exact .inr (.inr ⟨hmode, hshort⟩)
  | shiftMove =>
    cases b.getLsbD 3 with
    | true => exact .inr (.inr ⟨hmode, hshort⟩)
    | false => cases b.getLsbD 2 <;> exact .inr (.inr ⟨hmode, hshort⟩)
  | functionSet =>
    cases b.getLsbD 4 with
    | false => exact .inr (.inr ⟨rfl, hshort⟩)
    | true => exact .inl (.inl ⟨rfl, Nat.le_refl _⟩)

/-- The first pulse, at any observer (R58 to R61). -/
theorem Observer.towardsM8_of_pulse {c : Config} (hn : c.nibReset = 0x3) (o : Observer) {x : Nat}
    (hx : c.obsPowerMin ≤ x) : (o.latch c x (some false) (some 0x3)).towardsM8 c x := by
  by_cases hmode : o.mode = .unknown
  · rw [Observer.latch_unknown hmode, Observer.latchUnknown_pulse hn]
    exact Observer.blindPulse_towardsM8 hmode hx
  by_cases hearly : x < o.busyUntil
  · rw [Observer.latch_early hmode hearly, Observer.latchUnknown_pulse hn]
    exact Observer.blindPulse_towardsM8 rfl hx
  have hbusy := Nat.not_lt.mp hearly
  rw [Observer.latch_in_time hbusy]
  cases h : o.mode with
  | unknown => exact absurd h hmode
  | m8 =>
    rw [Observer.latchChecked_m8 h]
    exact .inl (.inl (Observer.latchM8_pulse c o x h))
  | m4h =>
    rw [Observer.latchChecked_m4h h]
    exact .inl (.inr (.inr ⟨rfl, hbusy⟩))
  | m4l rs hi =>
    rw [Observer.latchChecked_m4l h]
    cases rs with
    | true =>
      rw [Observer.latchLow, if_neg (by decide), Observer.latchUnknown_pulse hn]
      exact Observer.blindPulse_towardsM8 rfl hx
    | false =>
      have hdefined : ∀ hi : Nibble, ctlClass (joinNibbles hi 0x3) ≠ .undefinedByte := by decide
      exact Observer.execInstruction_towardsM8 rfl (hdefined hi)

/-- A pulse in 8-bit mode (R60). -/
theorem Observer.atM8_of_pulse {c : Config} {o : Observer} {x y : Nat} (h : o.atM8 c x) (hxy : x + c.obsExecShort ≤ y) :
    (o.latch c y (some false) (some 0x3)).atM8 c y := by
  obtain ⟨hmode, hbusy⟩ := h
  rw [Observer.latch_in_time (Nat.le_trans hbusy hxy), Observer.latchChecked_m8 hmode]
  exact Observer.latchM8_pulse c o y hmode

/-- The pulse that reaches 8-bit mode: the third that is counted, or the low nibble of 0x33 (R59, R62). -/
theorem Observer.atM8_of_near {c : Config} (hn : c.nibReset = 0x3) {o : Observer} {x y : Nat} (h : o.nearM8 c x)
    (hshort : x + c.obsExecShort ≤ y) (hgap : x + c.obsResetGap2 ≤ y) :
    (o.latch c y (some false) (some 0x3)).atM8 c y := by
  rcases h with h | ⟨hmode, hk, htk⟩ | ⟨hmode, hbusy⟩
  · exact Observer.atM8_of_pulse h hshort
  · rw [Observer.latch_unknown hmode, Observer.latchUnknown_pulse hn, Observer.blindPulse_two hk htk,
      if_pos (by omega)]
    exact ⟨rfl, Nat.le_refl _⟩
  · rw [Observer.latch_in_time (by omega), Observer.latchChecked_m4l hmode]
    exact ⟨rfl, Nat.le_refl _⟩

/-- The pulse before it: the second that is counted, or the high nibble of 0x33 (R59, R61). -/
theorem Observer.nearM8_of_towards {c : Config} (hn : c.nibReset = 0x3) {o : Observer} {x y : Nat}
    (h : o.towardsM8 c x) (hshort : x + c.obsExecShort ≤ y) (hlong : x + c.obsExecLong ≤ y)
    (hgap1 : x + c.obsResetGap1 ≤ y) (hgap2 : x + c.obsResetGap2 ≤ y) :
    (o.latch c y (some false) (some 0x3)).nearM8 c y := by
  rcases h with h | ⟨hmode, hk, htk⟩ | ⟨hmode, hbusy⟩
  · exact .inl (Observer.atM8_of_near hn h hshort hgap2)
  · rw [Observer.latch_unknown hmode, Observer.latchUnknown_pulse hn, Observer.blindPulse_one hk htk,
      if_pos (by omega)]
    exact .inr (.inl ⟨hmode, rfl, rfl⟩)
  · have htime : o.busyUntil ≤ y := by omega
    rw [Observer.latch_in_time htime, Observer.latchChecked_m4h hmode]
    exact .inr (.inr ⟨rfl, htime⟩)

/-- The switch to 4-bit mode (R60, R112). -/
theorem Observer.latch_switch {c : Config} {o : Observer} {x y : Nat} (h : o.atM8 c x) (hxy : x + c.obsExecShort ≤ y) :
    (o.latch c y (some false) (some 0x2)).mode = .m4h ∧
      (o.latch c y (some false) (some 0x2)).busyUntil = y + c.obsExecShort := by
  obtain ⟨hmode, hbusy⟩ := h
  rw [Observer.latch_in_time (Nat.le_trans hbusy hxy), Observer.latchChecked_m8 hmode]
  exact ⟨rfl, rfl⟩

/-! ## LCD_INIT at the default waits -/

theorem observer_of_atDefaults {c : Config} (hc : c.atDefaults) :
    c.nibReset = 0x3 ∧ c.obsPowerMin = 15000 ∧ c.obsResetGap1 = 4100 ∧ c.obsResetGap2 = 100 ∧ c.obsExecLong = 1520 ∧
      c.obsExecShort = 37 := by
  rw [hc]
  exact ⟨rfl, rfl, rfl, rfl, rfl, rfl⟩

theorem waits_of_atDefaults {c : Config} (hc : c.atDefaults) :
    c.tRsSetup = 1 ∧ c.tBusSettle = 40 ∧ c.tEnHigh = 40 ∧ commandWait c 0x01 = 1600 := by
  rw [hc]
  exact ⟨rfl, rfl, rfl, rfl⟩

theorem resetBeats_of_atDefaults {c : Config} (hc : c.atDefaults) :
    resetBeats c =
      [.wait 100000, .wait 40, .wait 40, .nibble 0x3, .wait 5000, .wait 40, .wait 40, .nibble 0x3, .wait 100, .wait 40,
        .wait 40, .nibble 0x3, .wait 0, .wait 40, .wait 40, .nibble 0x2] :=
  (congrArg resetBeats hc).trans rfl

theorem commands_of_atDefaults {c : Config} (hc : c.atDefaults) :
    c.cmdFuncset = 0x28 ∧ c.cmdClear = 0x01 ∧ c.initDispctrl = 0x0F ∧ c.initEntry = 0x06 := by
  rw [hc]
  exact ⟨rfl, rfl, rfl, rfl⟩

/-- In 4-bit mode between bytes, and busy no longer than an instruction from `t` on. -/
def Observer.awaitsByte (c : Config) (o : Observer) (t : Nat) : Prop := o.mode = .m4h ∧ o.busyUntil ≤ t + c.obsExecShort

/-- The resets and the switch, at any observer, end in 4-bit mode between bytes (R118, R142). -/
theorem Observer.takes_resets {c : Config} (hc : c.atDefaults) (o : Observer) {t t' : Nat} {ls : List Sample}
    (h : Paced t (resetBeats c) ls t') : (o.takes c ls).awaitsByte c t' := by
  obtain ⟨hn, hpower, hgap1, hgap2, hlong, hshort⟩ := observer_of_atDefaults hc
  rw [resetBeats_of_atDefaults hc] at h
  obtain ⟨x1, _, rfl, hx1, x2, _, rfl, hx2, x3, _, rfl, hx3, x4, _, rfl, hx4, rfl, hend⟩ := h
  have h1 := Observer.towardsM8_of_pulse hn o (x := x1) (by omega)
  have h2 := Observer.nearM8_of_towards hn h1 (y := x2) (by omega) (by omega) (by omega) (by omega)
  have h3 := Observer.atM8_of_near hn h2 (y := x3) (by omega) (by omega)
  obtain ⟨hmode, hbusy⟩ := Observer.latch_switch h3 (y := x4) (by omega)
  exact ⟨hmode, Nat.le_trans (Nat.le_of_eq hbusy) (Nat.add_le_add_right hend _)⟩

theorem joinNibbles_nibbles (b : Byte) : joinNibbles (hiNibble b) (loNibble b) = b := by
  rw [joinNibbles_eq_ofNat, toNat_hiNibble, toNat_loNibble, Nat.div_add_mod, BitVec.ofNat_toNat, BitVec.setWidth_eq]

/-- In mode M4H the two nibbles of a command, in time, execute it (R61). -/
theorem Observer.latch_command {o : Observer} {x y : Nat} (hmode : o.mode = .m4h) (hx : o.busyUntil ≤ x) (hxy : x ≤ y)
    (c : Config) (b : Byte) :
    (o.latch c x (some false) (some (hiNibble b))).latch c y (some false) (some (loNibble b)) =
      o.execInstruction c b y := by
  have hy : ({ o with mode := .m4l false (hiNibble b) } : Observer).busyUntil ≤ y := Nat.le_trans hx hxy
  have hsame : { o with mode := .m4h } = o := by rw [← hmode]
  rw [Observer.latch_in_time hx, Observer.latchChecked_m4h hmode, Observer.latch_in_time hy,
    Observer.latchChecked_m4l rfl, Observer.latchLow, if_pos rfl, joinNibbles_nibbles, Observer.execByte,
    if_neg Bool.false_ne_true]
  exact congrArg (Observer.execInstruction c · b y) hsame

/-- A command on its beats is executed, and what it leaves awaits the next one after the trailing wait (R61, R93). -/
theorem Observer.takes_command {c : Config} (hc : c.atDefaults) {o : Observer} {t t' : Nat} {b : Byte} {ls : List Sample}
    (h : Paced t (commandBeats c b) ls t') (ho : o.awaitsByte c t)
    (hnext : ∀ x, (o.execInstruction c b x).awaitsByte c (x + commandWait c b)) :
    ∃ x, o.takes c ls = o.execInstruction c b x ∧ (o.takes c ls).awaitsByte c t' := by
  obtain ⟨_, _, _, _, _, hshort⟩ := observer_of_atDefaults hc
  obtain ⟨hrs, hbus, hen, _⟩ := waits_of_atDefaults hc
  obtain ⟨hmode, hbusy⟩ := ho
  obtain ⟨x, _, rfl, hx, y, _, rfl, hy, rfl, hend⟩ := h
  have htakes := Observer.latch_command (x := x) (y := y) hmode (by omega) (by omega) c b
  obtain ⟨hmode', hbusy'⟩ := hnext y
  rw [← htakes] at hmode' hbusy'
  exact ⟨y, htakes, hmode', Nat.le_trans hbusy' (Nat.add_le_add_right hend _)⟩

/-- The four commands make an observer in 4-bit mode ready: each is executed, and none loses what those before it have
set (R113 to R116, R118). -/
theorem Observer.takes_setup {c : Config} (hc : c.atDefaults) {o : Observer} {t t' : Nat} {ls : List Sample}
    (h : Paced t (setupBeats c) ls t') (ho : o.awaitsByte c t) :
    (o.takes c ls).ready c ∧ (o.takes c ls).ac = .ddram 0 ∧ (o.takes c ls).ddram = Cells.fill 0x20 := by
  obtain ⟨_, _, _, _, hlong, _⟩ := observer_of_atDefaults hc
  obtain ⟨_, _, _, hwait⟩ := waits_of_atDefaults hc
  obtain ⟨hfunc, hclear, hdctl, hentry⟩ := commands_of_atDefaults hc
  have hshort (x w : Nat) : x + c.obsExecShort ≤ x + w + c.obsExecShort := by omega
  have hclearBusy (x : Nat) : x + c.obsExecLong ≤ x + commandWait c 0x01 + c.obsExecShort := by omega
  simp only [setupBeats, hfunc, hclear, hdctl, hentry] at h
  obtain ⟨_, _, _, rfl, hfour, rfl, _⟩ := paced_append.mp h
  obtain ⟨_, _, ls4, rfl, hthree, h4⟩ := paced_append.mp hfour
  obtain ⟨_, _, ls3, rfl, htwo, h3⟩ := paced_append.mp hthree
  obtain ⟨_, ls1, ls2, rfl, h1, h2⟩ := paced_append.mp htwo
  obtain ⟨x1, e1, ho1⟩ := Observer.takes_command hc h1 ho fun x => ⟨rfl, hshort x _⟩
  rw [e1] at ho1
  obtain ⟨x2, e2, ho2⟩ := Observer.takes_command hc h2 ho1 fun x => ⟨rfl, hclearBusy x⟩
  rw [e2] at ho2
  obtain ⟨x3, e3, ho3⟩ := Observer.takes_command hc h3 ho2 fun x => ⟨rfl, hshort x _⟩
  rw [e3] at ho3
  obtain ⟨x4, e4, _⟩ := Observer.takes_command hc h4 ho3 fun x => ⟨rfl, hshort x _⟩
  rw [List.append_nil, Observer.takes_append, Observer.takes_append, Observer.takes_append, e1, e2, e3, e4,
    Observer.ready, hfunc, hdctl, hentry]
  exact ⟨⟨rfl, rfl, rfl, rfl, rfl, rfl⟩, rfl, rfl⟩

/-- Settles O41: the run's latches make the observer ready, whatever a latch before them has made of it. -/
theorem initMakesTheObserverReady : Obligations.InitMakesTheObserverReady := by
  intro s q qs hs hidle hq hop hdefaults hwf
  have hfits := Config.fits_of_atDefaults hdefaults
  obtain ⟨t, ls, ms, hrun, ⟨hdriving, _, hlow⟩, hlatches, _, hpaced⟩ := run_lcdInit hs hidle hq hop hfits hwf
  obtain ⟨htidle, htsafe, hcount, _⟩ := run_lcdInit_ends hs hidle hq hop hfits hrun
  have hextends := run_extends hrun
  have hobs : t.obs = s.obs.takes s.cfg (ls ++ ms) := hextends.obs_of_latches hlatches
  obtain ⟨u, resets, setup, rfl, hresets, hsetup⟩ := paced_append.mp hpaced
  have hawaits := Observer.takes_resets hdefaults (s.obs.takes s.cfg ls) hresets
  obtain ⟨hready, hac, hddram⟩ := Observer.takes_setup hdefaults hsetup hawaits
  rw [← Observer.takes_append, ← Observer.takes_append, ← hobs] at hready hac hddram
  refine ⟨t, hrun, htidle, htsafe, hdriving.driven, hlow, hextends.cfg ▸ hready, hac, fun a ha => ?_, hcount⟩
  rw [hddram, Cells.read_fill, if_pos ha]

end Sys2Proof.Machine
end

section
/-! PROOF. The host move of a reserved op: the mark REFUSE_BAD_REQUEST, and nothing of the request executed (R125). -/

namespace Sys2Proof.Machine

/-- A reserved op spells no instruction, whatever the string object (R70, R76). -/
theorem decodeReq_reserved {r : Req} (hop : 6 ≤ (reqOp r.word).toNat) : ∃ e, decodeReq r = .error e := by
  cases hd : decodeReq r with
  | error e => exact ⟨e, rfl⟩
  | ok i =>
    have hle : (reqOp r.word).toNat ≤ 5 := (decodeReq_ok_iff r).mp ⟨i, hd⟩
    omega

/-- The host move, for a request that does not decode: the mark is set where the host has arrived (R34, R125). -/
theorem step_host_undecodable {s : State} {q : HostReq} {qs : List HostReq} {e : DecodeError} (hs : s.safe)
    (hidle : s.idle) (hq : s.hostq = q :: qs)
    (he : decodeReq { word := q.word, s := (s.hostArrive q qs).listOperand q } = .error e) :
    step s = .next ((s.hostArrive q qs).refuse .badRequest) := by
  obtain ⟨hf, hr⟩ := hs
  obtain ⟨huq, hcur⟩ := hidle
  simp only [step, hf, hr, huq, hcur, hq, hostMove, he]

/-- Settles O6: the step is the host's arrival and the mark, and neither touches the rest of the state. -/
theorem reservedRequestIsRefused : Obligations.ReservedRequestIsRefused := by
  intro s q qs hs hidle hq hop
  obtain ⟨e, he⟩ := decodeReq_reserved (r := { word := q.word, s := (s.hostArrive q qs).listOperand q }) hop
  refine ⟨_, step_host_undecodable hs hidle hq he, ?_⟩
  obtain ⟨hfault, _⟩ := hs
  obtain ⟨huq, hcur⟩ := hidle
  simp [hfault, huq, hcur]

end Sys2Proof.Machine
end

section
/-! PROOF. O37: the micro-ops, the draws and the waits of an expansion add up over its parts, and each part is transactions
at the default waits. -/

namespace Sys2Proof.Machine

/-! ## Costs -/

/-- A list of so many micro-ops, with so many draws, that waits so long. -/
def Costs (c : Config) (l : List Item) (ops draws wait : Nat) : Prop :=
  l.length = ops ∧ totalDraws c l = draws ∧ totalWait c l = wait

theorem Costs.append {c : Config} {l m : List Item} {ops draws wait ops' draws' wait' : Nat}
    (hl : Costs c l ops draws wait) (hm : Costs c m ops' draws' wait') :
    Costs c (l ++ m) (ops + ops') (draws + draws') (wait + wait') := by
  obtain ⟨rfl, rfl, rfl⟩ := hl
  obtain ⟨rfl, rfl, rfl⟩ := hm
  exact ⟨List.length_append, totalDraws_append c l m, totalWait_append c l m⟩

theorem Costs.flatMap {α : Type} {c : Config} {f : α → List Item} {ops draws wait : Nat}
    (hf : ∀ a, Costs c (f a) ops draws wait) (l : List α) :
    Costs c (l.flatMap f) (ops * l.length) (draws * l.length) (wait * l.length) := by
  induction l with
  | nil => exact ⟨rfl, rfl, rfl⟩
  | cons a l ih =>
    have hcosts := (hf a).append ih
    rwa [← mul_one_add, ← mul_one_add, ← mul_one_add, Nat.add_comm 1] at hcosts

/-! ## The costs at the default waits -/

/-- At the defaults a command is long exactly if its byte is 0x01 or 0x02 (R92, R93). -/
theorem commandWait_of_atDefaults {c : Config} (hc : c.atDefaults) (b : Byte) :
    commandWait c b = if b = 0x01 ∨ b = 0x02 then 1600 else 40 := by
  have hdefault : commandWait c b = if (b == 0x01 || b == 0x02) = true then 1600 else 40 := by
    rw [hc]
    rfl
  simpa only [Bool.or_eq_true, beq_iff_eq] using hdefault

theorem total_seqTransaction_of_atDefaults {c : Config} (hc : c.atDefaults) (rs : Bool) (b : Byte) (w : Nat) :
    totalDraws c (seqTransaction c rs b w) = 7 ∧ totalWait c (seqTransaction c rs b w) = 161 + w := by
  obtain ⟨hrs, hbus, hen, _⟩ := waits_of_atDefaults hc
  obtain ⟨hwait, hdraws⟩ := total_seqTransaction c rs b w
  rw [hrs, hbus, hen] at hwait
  exact ⟨hdraws, hwait⟩

theorem costs_seqCmd {c : Config} (hc : c.atDefaults) (b : Byte) :
    Costs c (seqCmd c b) 13 7 (if b = 0x01 ∨ b = 0x02 then 1761 else 201) := by
  obtain ⟨hdraws, hwait⟩ := total_seqTransaction_of_atDefaults hc false b (commandWait c b)
  refine ⟨length_seqCmd_fit (Config.fits_of_atDefaults hc) b, hdraws, hwait.trans ?_⟩
  rw [commandWait_of_atDefaults hc, apply_ite (161 + ·)]

theorem costs_seqChar {c : Config} (hc : c.atDefaults) (b : Byte) : Costs c (seqChar c b) 13 7 201 := by
  have hchar : c.tChar = 40 := by
    rw [hc]
    rfl
  obtain ⟨hdraws, hwait⟩ := total_seqTransaction_of_atDefaults hc true b c.tChar
  exact ⟨length_seqChar_fit (Config.fits_of_atDefaults hc) b, hdraws, hwait.trans (congrArg (161 + ·) hchar)⟩

/-- A terminated string costs its characters: no FAULT follows them (R96). -/
theorem costs_seqString {c : Config} (hc : c.atDefaults) {s : List Byte} (hs : terminated c.stringMode s = true) :
    Costs c (seqString c s) (13 * (payload c.stringMode s).length) (7 * (payload c.stringMode s).length)
      (201 * (payload c.stringMode s).length) := by
  rw [seqString, if_pos hs, List.append_nil]
  exact Costs.flatMap (costs_seqChar hc) _

/-- The draws of LCD_INIT: three before the power wait, three a nibble and seven a command (R109). -/
theorem totalDraws_seqInit (c : Config) : totalDraws c (seqInit c) = 43 := by
  have hprelude : totalDraws c [uCfgOut, uSetRs false, uSetE false] = 3 := by
    simp [totalDraws, itemDraws]
  have hcmd (b : Byte) : totalDraws c (seqCmd c b) = 7 := (total_seqTransaction c false b _).2
  simp only [seqInit_eq, resetOps, setupOps, totalDraws_append, hprelude, total_delays, total_seqNibble, hcmd]

theorem costs_seqInit {c : Config} (hc : c.atDefaults) : Costs c (seqInit c) 80 43 157784 := by
  refine ⟨length_seqInit_fit (Config.fits_of_atDefaults hc), totalDraws_seqInit c, ?_⟩
  rw [totalWait_seqInit, initBeats_of_atDefaults hc]
  rfl

/-- A row that has no address and whose body is sent costs its body (R103). -/
theorem costs_seqAt_of_sent {c : Config} (hsends : c.invalidRowSendsData = true) {row col : Byte}
    (h : ddramCmd c row col = none) {body : List Item} {ops draws wait : Nat} (hbody : Costs c body ops draws wait) :
    Costs c (seqAt c row col body) ops draws wait := by
  have hrow : ¬(row = 1 ∨ row = 2) := fun hvalid => by
    obtain ⟨a, ha⟩ := (row_valid_iff_ddramCmd c row col).mp hvalid
    exact Option.some_ne_none a (ha.symm.trans h)
  obtain ⟨h1, h2⟩ := not_or.mp hrow
  rwa [seqAt_of_sent hsends h1 h2]

/-- A position that has an address costs the address command and its body (R103). -/
theorem costs_seqAt_of_address {c : Config} (hc : c.atDefaults) {row col a : Byte} (h : ddramCmd c row col = some a)
    {body : List Item} {ops draws wait : Nat} (hbody : Costs c body ops draws wait) :
    Costs c (seqAt c row col body) (13 + ops) (7 + draws) ((if a = 0x01 ∨ a = 0x02 then 1761 else 201) + wait) := by
  rw [seqAt_of_address h]
  exact (costs_seqCmd hc a).append hbody

/-- Settles O37: each row of R147 is the cost of its expansion. -/
theorem nominalDurations : Obligations.NominalDurations := by
  intro c hc
  refine ⟨?init, costs_seqCmd hc, costs_seqChar hc, fun b row col a ha => ?charAt,
    fun b row col ha hsends => costs_seqAt_of_sent hsends ha (costs_seqChar hc b), fun s hs => costs_seqString hc hs,
    fun s row col a hs ha h1 h2 => ?stringAt⟩
  case init =>
    obtain ⟨hops, hdraws, hwait⟩ := costs_seqInit hc
    exact ⟨hops, hwait, hdraws⟩
  case charAt =>
    obtain ⟨hops, hdraws, hwait⟩ := costs_seqAt_of_address hc ha (costs_seqChar hc b)
    exact ⟨hops, hdraws, hwait.trans (apply_ite (· + 201) ..)⟩
  case stringAt =>
    have hcosts := costs_seqAt_of_address hc ha (costs_seqString hc hs)
    rwa [if_neg (not_or.mpr ⟨h1, h2⟩), ← mul_one_add, ← mul_one_add, ← mul_one_add, Nat.add_comm 1] at hcosts

end Sys2Proof.Machine
end
